-- ==== Sys2Proof/Word.lean ====
section
/-! DEFINITION. The fixed-width values of the DES core (00_scope.md R9 to R14): every value is an unsigned bit vector of
a stated width, bit 0 is the least significant (R12 a), `extractLsb'` is the slice `v[hi:lo]` and `++` the
concatenation `a ‖ b` of R13. -/

namespace Sys2Proof

/-- One byte of the host's data (20_memory.md R41). -/
abbrev Byte := BitVec 8

/-- A key as supplied, 64 bits, of which 56 take part in the schedule (00_scope.md R9, `KEY_W`). -/
abbrev Key := BitVec 64

/-- A block of plaintext or ciphertext, 64 bits (00_scope.md R9, `BLOCK_W`). -/
abbrev Block := BitVec 64

/-- One subkey, 48 bits (00_scope.md R9, `SUBKEY_W`). -/
abbrev Subkey := BitVec 48

/-- `L` or `R`, 32 bits (00_scope.md R9, `HALF_W`). -/
abbrev Half := BitVec 32

/-- `C` or `D`, 28 bits (00_scope.md R9, `CD_W`). -/
abbrev KeyHalf := BitVec 28

/-- The input of one S-box, 6 bits (00_scope.md R9, `SBOX_IN_W`). -/
abbrev Chunk := BitVec 6

/-- The output of one S-box, 4 bits (00_scope.md R9, `SBOX_OUT_W`). -/
abbrev Nibble := BitVec 4

/-- The RoundKeySchedule: exactly sixteen ordered subkeys (10_state.md R21). -/
abbrev Schedule := Vector Subkey 16

/-- A command word, 72 bits (30_encoding.md R62). -/
abbrev CommandWord := BitVec 72

/-- A response word, 66 bits (30_encoding.md R67). -/
abbrev ResponseWord := BitVec 66

/-- `zext_64` of a subkey: zero bits above it up to 64 (00_scope.md R13). -/
abbrev zext64 (k : Subkey) : BitVec 64 := k.setWidth 64

end Sys2Proof
end

