-- ==== Sys2Proof/Syntax.lean ====
section
/-! DEFINITION. The commands of the DES core: one constructor per row of spec/opcode_table.json (30_encoding.md R63,
60_exceptions.md R193), and the textual operations of 30_encoding.md R70 and R71, which expand to commands and have no
encoding of their own. -/

namespace Sys2Proof

/-- The direction operand, one of {encrypt, decrypt} (00_scope.md glossary, 30_encoding.md R64). -/
inductive Direction where
  | encrypt
  | decrypt
deriving DecidableEq, Repr

/-- The command set: `KEYGEN`, `XFORM` and `RDKEY` and nothing else (60_exceptions.md R193). -/
inductive Instr where
  /-- `KEYGEN`, op 00: the direction and the 64-bit key (42_key_schedule.md R130). -/
  | keygen (dir : Direction) (key : Key)
  /-- `XFORM`, op 01: the 64-bit block (44_block_transform.md R159). -/
  | xform (block : Block)
  /-- `RDKEY`, op 10: the subkey index 0 to 15 (42_key_schedule.md R131). -/
  | rdkey (idx : Fin 16)
deriving DecidableEq, Repr

/-- The textual forms (30_encoding.md R70) and the two pseudo-operations (R71). Numbers stand as they were written, so
a term of this type can be ill formed: WellFormed.lean holds the check. -/
inductive TextOp where
  | keygenE (key : Nat)
  | keygenD (key : Nat)
  | xform (block : Nat)
  | rdkey (idx : Nat)
  | xbatch (blocks : List Nat)
  | rdsched
deriving DecidableEq, Repr

end Sys2Proof
end

