-- ==== Sys2Proof/WellFormed.lean ====
section
/-! DEFINITION. The checks on what is written down. Every term of `Instr` is well formed: the key and the block are 64
bits wide by their type (20_memory.md R44) and "all 16 values of a 4-bit index are valid" (R40). What can be ill formed
is a textual operation (30_encoding.md R70), a permutation table (40_permutation_engine.md R84) and an S-box row
(41_sbox_network.md R104). A table that fails its check cannot be built at all: the source calls it "a programming
error", to be "caught by construction-time assertions" (20_memory.md R53; DESIGN CHOICE, safe: assumption 9). -/

namespace Sys2Proof

/-- A number written with 16 hexadecimal digits (30_encoding.md R70). -/
def fits64 (n : Nat) : Bool := decide (n < 2 ^ 64)

/-- A key or block has 16 hexadecimal digits, an index is 0 to 15 (30_encoding.md R70). -/
def TextOp.wf : TextOp → Bool
  | .keygenE key => fits64 key
  | .keygenD key => fits64 key
  | .xform block => fits64 block
  | .rdkey idx => decide (idx < 16)
  | .xbatch blocks => blocks.all fits64
  | .rdsched => true

/-- The source's table invariant (40_permutation_engine.md R84): as many entries as the output has bits, every entry a
valid 1-based position of the input. -/
def permTableWf (w n : Nat) (entries : List Nat) : Bool :=
  entries.length == n && entries.all fun p => decide (1 ≤ p) && decide (p ≤ w)

/-- A row of an S-box: a permutation of 0 to 15 (41_sbox_network.md R104). -/
def sboxRowWf (row : List Nat) : Bool :=
  row.length == 16 && (List.range 16).all fun v => row.contains v

/-- The shape of an S-box: 4 rows of 16 columns, each row a permutation of 0 to 15 (41_sbox_network.md section 2 and
R104). -/
def sboxTableWf (rows : List (List Nat)) : Bool :=
  rows.length == 4 && rows.all sboxRowWf

/-- A permutation table from `w` input bits to `n` output bits, well formed by construction
(40_permutation_engine.md R80 and R84). -/
structure PermTable (w n : Nat) where
  /-- The entries in table order, each an MSB-1 position of the input. -/
  entries : List Nat
  /-- The invariant of R84. -/
  ok : permTableWf w n entries = true

/-- One "4×16 lookup matrix", well formed by construction (41_sbox_network.md section 2). -/
structure SBoxTable where
  /-- Row `r`, column `c` is `S_n[r][c]`. -/
  rows : List (List Nat)
  /-- Four rows, each a permutation of 0 to 15. -/
  ok : sboxTableWf rows = true

end Sys2Proof
end

