-- ==== Sys2Proof/Decode.lean ====
section
/-! DEFINITION. The one 72-bit command format (30_encoding.md R62), the decoder of R69 (total on every 72-bit word,
refusing by name), the encoder from the same fields, the rows of spec/opcode_table.json (R66), and the host's
`decodeTableWord`. -/

namespace Sys2Proof

/-- `op` = `CW[71:70]` (30_encoding.md R62). -/
def opField (w : CommandWord) : BitVec 2 := w.extractLsb' 70 2

/-- `dir` = `CW[69]` (30_encoding.md R62). -/
def dirField (w : CommandWord) : BitVec 1 := w.extractLsb' 69 1

/-- `rsv` = `CW[68]` (30_encoding.md R62). -/
def rsvField (w : CommandWord) : BitVec 1 := w.extractLsb' 68 1

/-- `idx` = `CW[67:64]` (30_encoding.md R62). -/
def idxField (w : CommandWord) : BitVec 4 := w.extractLsb' 64 4

/-- `data` = `CW[63:0]` (30_encoding.md R62). -/
def dataField (w : CommandWord) : BitVec 64 := w.extractLsb' 0 64

/-- Direction code: 0 encrypt, 1 decrypt (30_encoding.md R64). -/
def Direction.ofBit (b : BitVec 1) : Direction := if b = 0#1 then .encrypt else .decrypt

/-- The bit of a direction (30_encoding.md R64). -/
def Direction.toBit : Direction → BitVec 1
  | .encrypt => 0#1
  | .decrypt => 1#1

/-- Why a word is no command: the five cases of 60_exceptions.md R182, with the two unused fields of the third told
apart. Each raises `IllegalCommand`. The names are the model's and unobservable (DESIGN CHOICE, safe: assumption 8). -/
inductive DecodeError where
  /-- `op` = 11. -/
  | reservedOp
  /-- `rsv` = 1. -/
  | reservedBit
  /-- `KEYGEN` or `XFORM` with a non-zero `idx`. -/
  | unusedIdx
  /-- `XFORM` or `RDKEY` with `dir` = 1. -/
  | unusedDir
  /-- `RDKEY` with non-zero `data`. -/
  | unusedData
deriving DecidableEq, Repr

/-- The encoding checks of 30_encoding.md R69, in its order; the state is not looked at (60_exceptions.md R182). -/
def decode (w : CommandWord) : Except DecodeError Instr :=
  if opField w = 3#2 then .error .reservedOp
  else if rsvField w ≠ 0#1 then .error .reservedBit
  else if opField w = 0#2 then
    if idxField w ≠ 0#4 then .error .unusedIdx
    else .ok (.keygen (Direction.ofBit (dirField w)) (dataField w))
  else if opField w = 1#2 then
    if dirField w ≠ 0#1 then .error .unusedDir
    else if idxField w ≠ 0#4 then .error .unusedIdx
    else .ok (.xform (dataField w))
  else
    if dirField w ≠ 0#1 then .error .unusedDir
    else if dataField w ≠ 0#64 then .error .unusedData
    else .ok (.rdkey (idxField w).toFin)

/-- The five fields laid out from `CW[71]` down (30_encoding.md R62). -/
def packFields (op : BitVec 2) (dir rsv : BitVec 1) (idx : BitVec 4) (data : BitVec 64) : CommandWord :=
  op ++ dir ++ rsv ++ idx ++ data

/-- The command word of an instruction: unused fields are zero (30_encoding.md R65 and R70). -/
def encode : Instr → CommandWord
  | .keygen dir key => packFields 0#2 dir.toBit 0#1 0#4 key
  | .xform block => packFields 1#2 0#1 0#1 0#4 block
  | .rdkey idx => packFields 2#2 0#1 0#1 (BitVec.ofFin idx) 0#64

/-- One row of spec/opcode_table.json: a word belongs to it when `(CW & mask) = pattern`. -/
structure OpcodeRow where
  mask : CommandWord
  pattern : CommandWord
deriving DecidableEq, Repr

/-- Row `KEYGEN` (30_encoding.md R66). -/
def keygenRow : OpcodeRow := { mask := 0xDF0000000000000000#72, pattern := 0x000000000000000000#72 }

/-- Row `XFORM` (30_encoding.md R66). -/
def xformRow : OpcodeRow := { mask := 0xFF0000000000000000#72, pattern := 0x400000000000000000#72 }

/-- Row `RDKEY` (30_encoding.md R66). -/
def rdkeyRow : OpcodeRow := { mask := 0xF0FFFFFFFFFFFFFFFF#72, pattern := 0x800000000000000000#72 }

/-- The opcode table's three rows. -/
def opcodeRows : List OpcodeRow := [keygenRow, xformRow, rdkeyRow]

/-- `(CW & mask) = match` (30_encoding.md R66). -/
def OpcodeRow.matchesWord (r : OpcodeRow) (w : CommandWord) : Bool := w &&& r.mask == r.pattern

/-- A word is legal "exactly when it matches one of the three rows of `opcode_table.json`" (30_encoding.md R66). -/
def legalWord (w : CommandWord) : Bool := opcodeRows.any (·.matchesWord w)

/-- The row an instruction's word comes from. -/
def Instr.row : Instr → OpcodeRow
  | .keygen _ _ => keygenRow
  | .xform _ => xformRow
  | .rdkey _ => rdkeyRow

/-- The word the opcode table's `nbits` bits stand for: a command word is one word of 72 bits, its bit 0 the table's
bit 0; bits from `nbits` up are 0 (DEDUCED, safe: assumption 7). -/
def tableWord (nbits w : Nat) : CommandWord := BitVec.ofNat 72 (w % 2 ^ nbits)

/-- What the decoder reads from a table word. -/
def decodeTableWord (nbits w : Nat) : Option Instr :=
  match decode (tableWord nbits w) with
  | .ok i => some i
  | .error _ => none

end Sys2Proof
end

