-- ==== Sys2Proof/Config.lean ====
section
/-! DEFINITION. What the spec leaves to the implementation: the OPEN parameters of 00_scope.md R10 (no rule of the spec
reads one, and no definition of the machine does either: DESIGN CHOICE, safe, assumption 4), and the unspecified
contents of `RK` after reset (10_state.md R31). Each is an opaque constant with no body, so nothing can be proved of its value. -/

namespace Sys2Proof

/-- `RST_KIND`: whether `rst` is sampled on a clock edge (70_reset_and_hazards.md R200, decision D11). -/
inductive ResetKind where
  | synchronous
  | asynchronous
deriving DecidableEq, Repr, Inhabited

/-- What `RK[i]` holds after reset. 10_state.md R31: "The sixteen `RK[i]` hold no specified value after reset"; the
model names this constant and gives it no value. DESIGN CHOICE (assumption 1): one and the same arbitrary contents at
every reset; unsafe only in that. -/
opaque Config.rkAfterReset : Nat → Subkey

/-- `LAT_KEYGEN` less one, for the n-th command (decision D16: any positive finite number of cycles, possibly
varying). Read by no rule (70_reset_and_hazards.md R206). -/
opaque Config.latKeygenPred : Nat → Nat

/-- `LAT_XFORM` less one, for the n-th command (decision D16). Read by no rule. -/
opaque Config.latXformPred : Nat → Nat

/-- `LAT_RDKEY` less one, for the n-th command (decision D16). Read by no rule. -/
opaque Config.latRdkeyPred : Nat → Nat

/-- `N_LANES` less one (20_memory.md R52, decision D23). Read by no rule. -/
opaque Config.nLanesPred : Nat

/-- `RST_KIND` (70_reset_and_hazards.md R200). Read by no rule. -/
opaque Config.rstKind : ResetKind

/-- `LAT_KEYGEN`: positive (00_scope.md R10). -/
def Config.latKeygen (n : Nat) : Nat := Config.latKeygenPred n + 1

/-- `LAT_XFORM`: positive (00_scope.md R10). -/
def Config.latXform (n : Nat) : Nat := Config.latXformPred n + 1

/-- `LAT_RDKEY`: positive (00_scope.md R10). -/
def Config.latRdkey (n : Nat) : Nat := Config.latRdkeyPred n + 1

/-- `N_LANES`: positive (00_scope.md R10). -/
def Config.nLanes : Nat := Config.nLanesPred + 1

end Sys2Proof
end

