-- ==== Sys2Proof/Machine/State.lean ====
section
/-! DEFINITION. The state of the machine. `Arch` is the spec's State, "exactly two items" (10_state.md R20). `State` puts
it between the two word streams of the core's ports (30_encoding.md R61): what the host presents next and what it has
been answered. Both fields are a DESIGN CHOICE, safe (assumptions 2 and 3). -/

namespace Sys2Proof.Machine

/-- The architectural state (10_state.md R20): "A model's `State` type is a pair of these and nothing else." -/
structure Arch where
  /-- The subkey register file `RK[0..15]`, 16 × 48 bits (10_state.md R21). -/
  rk : Schedule
  /-- `SCHED_VALID`, the only flag (10_state.md R27). -/
  schedValid : Bool
deriving DecidableEq, Repr

/-- What the host can do to the core: present a command word (30_encoding.md R61) or assert reset
(70_reset_and_hazards.md R202, "a second kind of event beside `Step`"). -/
inductive PortEvent where
  /-- One command word, presented and accepted. -/
  | command (w : CommandWord)
  /-- Reset, with the command words that had been accepted and whose responses had not been taken: none, or those it
  abandons (70_reset_and_hazards.md R202). -/
  | reset (abandoned : List CommandWord)
deriving DecidableEq, Repr

/-- The machine: the architectural state and the model's own two port fields. -/
structure State where
  /-- The spec's whole state. -/
  arch : Arch
  /-- What the host will do at the command port, first event first (the model's field, assumption 2). -/
  port : List PortEvent
  /-- The response words delivered to the host so far, oldest first (the model's field, assumption 3). -/
  responses : List ResponseWord
deriving DecidableEq, Repr

/-- The two faults of 60_exceptions.md R181. Neither stops the machine: `raise` (Machine/Ops.lean) answers the command
with the fault's status and the machine goes on (R185, R187), so no step ends in `Host.Outcome.fault` (DEDUCED, safe:
assumption 6). -/
inductive Fault where
  /-- Raised by `step` on a word that matches no row of the opcode table (60_exceptions.md R182). Safe: it is answered
  as the spec says and nothing stops. -/
  | illegalCommand
  /-- Raised by `execXform` and `execRdkey` when `SCHED_VALID` = 0 (60_exceptions.md R183). Safe: it is answered as the
  spec says and nothing stops. -/
  | noSchedule
deriving DecidableEq, Repr

/-- Why a step has no meaning. No command of this hardware is refused. -/
inductive Refusal where
  /-- Raised by an arm of `exec` whose command has no meaning yet: by none. Safe: the model stops where the hardware
  goes on. -/
  | notModelled (mnemonic : String)
deriving DecidableEq, Repr

/-- The reset state of the core (10_state.md R31, 70_reset_and_hazards.md R200): `SCHED_VALID` = 0, `RK` arbitrary. -/
def Arch.reset : Arch where
  rk := Vector.ofFn fun i => Config.rkAfterReset i.val
  schedValid := false

/-- The machine right after reset: "no command in progress; no response pending" (70_reset_and_hazards.md R200), and
nothing presented by the host yet. -/
def State.reset : State where
  arch := Arch.reset
  port := []
  responses := []

end Sys2Proof.Machine
end

