-- ==== Sys2Proof/Machine/Flags.lean ====
section
/-! DEFINITION. The flag. `SCHED_VALID` is the only one (10_state.md R27): no command's result sets a condition code
(R28), and there is no key-parity flag (42_key_schedule.md R129). -/

namespace Sys2Proof.Machine

/-- Read of `SCHED_VALID` (10_state.md R27). -/
def schedReady (s : State) : Bool := s.arch.schedValid

/-- `SCHED_VALID <- b` (00_scope.md R16). -/
def setSchedValid (b : Bool) (s : State) : State := { s with arch := { s.arch with schedValid := b } }

end Sys2Proof.Machine
end

