-- ==== Sys2Proof/Machine/Operands.lean ====
section
/-! DEFINITION. The operand forms. "There are no immediates to assemble, sign-extend, scale or shift: each field is used
as it stands" (30_encoding.md R65): the only operand that names state is `RDKEY`'s index. The bytes of the host's data
become one 64-bit word by 20_memory.md R41; the core itself never reorders bytes (R42). -/

namespace Sys2Proof.Machine

/-- Read of `RK[i]`, side-effect free (10_state.md R24, 00_scope.md R16). -/
def readSubkey (i : Fin 16) (s : State) : Subkey := s.arch.rk[i]

/-- Read of all sixteen registers, in index order (10_state.md R24). -/
def readSchedule (s : State) : Schedule := s.arch.rk

/-- The 64-bit word of the host's bytes `b0, b1, ..., b7`, most significant first (20_memory.md R41). -/
def wordOfBytes (b : Vector Byte 8) : BitVec 64 :=
  b.toList.foldl (fun acc x => (acc <<< 8) ||| x.setWidth 64) 0#64

/-- The bytes of a word for the host to store: byte `bj` is `w[63-8j : 56-8j]` (20_memory.md R41 and R42). -/
def bytesOfWord (w : BitVec 64) : Vector Byte 8 := Vector.ofFn fun j => w.extractLsb' (56 - 8 * j.val) 8

end Sys2Proof.Machine
end

