-- ==== Sys2Proof/Machine/Ops.lean ====
section
/-! DEFINITION. The shared operations: taking the next event from the command port, answering a command, raising a fault
(the only exception entry of this hardware, 60_exceptions.md R185; there is no return, R187), writing the schedule,
reading it under `SCHED_VALID`, and reset. The core has no addressable memory (20_memory.md R40), so there is no memory
operation. -/

namespace Sys2Proof.Machine

/-- The status of a response word (30_encoding.md R67); code 11 is never produced, so no constructor stands for it. -/
inductive Status where
  | ok
  | illegalCommand
  | noSchedule
deriving DecidableEq, Repr

/-- The status codes (30_encoding.md R67). -/
def Status.code : Status → BitVec 2
  | .ok => 0#2
  | .illegalCommand => 1#2
  | .noSchedule => 2#2

/-- The status a fault is reported with (60_exceptions.md R181). -/
def Fault.status : Fault → Status
  | .illegalCommand => .illegalCommand
  | .noSchedule => .noSchedule

/-- `status ‖ data` (30_encoding.md R67). -/
def responseWord (st : Status) (data : BitVec 64) : ResponseWord := st.code ++ data

/-- `respond(status, data)` (00_scope.md R16): one response word, after all earlier ones (20_memory.md R48). -/
def respond (st : Status) (data : BitVec 64) (s : State) : State :=
  { s with responses := s.responses ++ [responseWord st data] }

/-- `raise <Fault>` (60_exceptions.md R185): no state is written, and the one response carries the fault's code and
zero data (R186). The machine goes on. -/
def raise (f : Fault) (s : State) : Host.Outcome State Fault Refusal := .next (respond f.status 0#64 s)

/-- `RK[i] <- S[i]` for every i (42_key_schedule.md R130). -/
def writeSchedule (sched : Schedule) (s : State) : State := { s with arch := { s.arch with rk := sched } }

/-- KEYGEN's one atomic update: all sixteen registers and `SCHED_VALID <- 1` (10_state.md R23, 20_memory.md R46). -/
def loadSchedule (sched : Schedule) (s : State) : State := setSchedValid true (writeSchedule sched s)

/-- What `XFORM` and `RDKEY` share: if `SCHED_VALID` = 0, `raise NoSchedule`; otherwise `respond(0b00, result)`, and no
state is written (60_exceptions.md R183, 10_state.md R24). -/
def answerWithSchedule (result : BitVec 64) (s : State) : Host.Outcome State Fault Refusal :=
  if schedReady s then .next (respond .ok result s) else raise .noSchedule s

/-- The next event at the command port, with the state in which it is handled: events take effect one at a time, in the
order the host presents them (20_memory.md R48). -/
def fetch (s : State) : Option (PortEvent × State) :=
  match s.port with
  | [] => none
  | e :: rest => some (e, { s with port := rest })

/-- Nothing presented: the core waits and nothing changes (DESIGN CHOICE, safe: assumption 2). -/
def idle (s : State) : Host.Outcome State Fault Refusal := .next s

/-- Reset (70_reset_and_hazards.md R202): the constant reset state whatever the state was; the abandoned commands are
treated as never presented; no response word. What the host has already been answered stays with the host. -/
def takeReset (_abandoned : List CommandWord) (s : State) : Host.Outcome State Fault Refusal :=
  .next { s with arch := Arch.reset }

/-- The host presents `e` as the very next event. -/
def present (e : PortEvent) (s : State) : State := { s with port := e :: s.port }

end Sys2Proof.Machine
end

