-- ==== Sys2Proof/Machine/Permute.lean ====
section
/-! DEFINITION. The Permutation Engine (40_permutation_engine.md): the function `Permute` and the six tables it is used
with. The table contents are the spec's, which marks them as supplied from general knowledge
(93_implementation_defined.md G1 to G6): UNVERIFIED, unsafe (assumption 5). -/

namespace Sys2Proof.Machine

/-- `pos_W(v, p)`: the bit at MSB-1 position `p`, position 1 being the most significant (00_scope.md R12 b). -/
def pos {w : Nat} (v : BitVec w) (p : Nat) : Bool := v.getLsbD (w - p)

/-- One step of the engine: shift the accumulator left and bring in one bit (40_permutation_engine.md R80). -/
def shiftIn {n : Nat} (acc : BitVec n) (b : Bool) : BitVec n := (acc <<< 1) ||| (BitVec.ofBool b).setWidth n

/-- `Permute(x, total_bits, T)` (40_permutation_engine.md R80): the accumulator starts at 0 and takes, in table order,
the bit at each entry's position. The table's own type holds it well formed (R84), so no shift is out of range (R83). -/
def permute {w n : Nat} (t : PermTable w n) (x : BitVec w) : BitVec n :=
  t.entries.foldl (fun acc p => shiftIn acc (pos x p)) 0#n

/-- Table PC-1, 64 to 56 bits (40_permutation_engine.md R87). -/
def pc1 : PermTable 64 56 where
  entries :=
    [57, 49, 41, 33, 25, 17, 9,
     1, 58, 50, 42, 34, 26, 18,
     10, 2, 59, 51, 43, 35, 27,
     19, 11, 3, 60, 52, 44, 36,
     63, 55, 47, 39, 31, 23, 15,
     7, 62, 54, 46, 38, 30, 22,
     14, 6, 61, 53, 45, 37, 29,
     21, 13, 5, 28, 20, 12, 4]
  ok := by decide

/-- Table PC-2, 56 to 48 bits (40_permutation_engine.md R88). -/
def pc2 : PermTable 56 48 where
  entries :=
    [14, 17, 11, 24, 1, 5,
     3, 28, 15, 6, 21, 10,
     23, 19, 12, 4, 26, 8,
     16, 7, 27, 20, 13, 2,
     41, 52, 31, 37, 47, 55,
     30, 40, 51, 45, 33, 48,
     44, 49, 39, 56, 34, 53,
     46, 42, 50, 36, 29, 32]
  ok := by decide

/-- Table IP, the Initial Permutation, 64 to 64 bits (40_permutation_engine.md R89). -/
def ip : PermTable 64 64 where
  entries :=
    [58, 50, 42, 34, 26, 18, 10, 2,
     60, 52, 44, 36, 28, 20, 12, 4,
     62, 54, 46, 38, 30, 22, 14, 6,
     64, 56, 48, 40, 32, 24, 16, 8,
     57, 49, 41, 33, 25, 17, 9, 1,
     59, 51, 43, 35, 27, 19, 11, 3,
     61, 53, 45, 37, 29, 21, 13, 5,
     63, 55, 47, 39, 31, 23, 15, 7]
  ok := by decide

/-- Table FP, the Final Permutation, 64 to 64 bits (40_permutation_engine.md R90). -/
def fp : PermTable 64 64 where
  entries :=
    [40, 8, 48, 16, 56, 24, 64, 32,
     39, 7, 47, 15, 55, 23, 63, 31,
     38, 6, 46, 14, 54, 22, 62, 30,
     37, 5, 45, 13, 53, 21, 61, 29,
     36, 4, 44, 12, 52, 20, 60, 28,
     35, 3, 43, 11, 51, 19, 59, 27,
     34, 2, 42, 10, 50, 18, 58, 26,
     33, 1, 41, 9, 49, 17, 57, 25]
  ok := by decide

/-- Table E, the Expansion, 32 to 48 bits (40_permutation_engine.md R91). -/
def expansion : PermTable 32 48 where
  entries :=
    [32, 1, 2, 3, 4, 5,
     4, 5, 6, 7, 8, 9,
     8, 9, 10, 11, 12, 13,
     12, 13, 14, 15, 16, 17,
     16, 17, 18, 19, 20, 21,
     20, 21, 22, 23, 24, 25,
     24, 25, 26, 27, 28, 29,
     28, 29, 30, 31, 32, 1]
  ok := by decide

/-- Table P, the round Permutation, 32 to 32 bits (40_permutation_engine.md R92). -/
def roundPerm : PermTable 32 32 where
  entries :=
    [16, 7, 20, 21,
     29, 12, 28, 17,
     1, 15, 23, 26,
     5, 18, 31, 10,
     2, 8, 24, 14,
     32, 27, 3, 9,
     19, 13, 30, 6,
     22, 11, 4, 25]
  ok := by decide

end Sys2Proof.Machine
end

