-- ==== Sys2Proof/Machine/SBox.lean ====
section
/-! DEFINITION. The S-Box Network (41_sbox_network.md): eight 6-to-4-bit lookups side by side. The table contents are
the spec's, which marks them as supplied from general knowledge (93_implementation_defined.md
G7): UNVERIFIED, unsafe (assumption 5). -/

namespace Sys2Proof.Machine

/-- S-box `S_1` (41_sbox_network.md R105). -/
def sbox1 : SBoxTable where
  rows :=
    [[14, 4, 13, 1, 2, 15, 11, 8, 3, 10, 6, 12, 5, 9, 0, 7],
     [0, 15, 7, 4, 14, 2, 13, 1, 10, 6, 12, 11, 9, 5, 3, 8],
     [4, 1, 14, 8, 13, 6, 2, 11, 15, 12, 9, 7, 3, 10, 5, 0],
     [15, 12, 8, 2, 4, 9, 1, 7, 5, 11, 3, 14, 10, 0, 6, 13]]
  ok := by decide

/-- S-box `S_2` (41_sbox_network.md R106). -/
def sbox2 : SBoxTable where
  rows :=
    [[15, 1, 8, 14, 6, 11, 3, 4, 9, 7, 2, 13, 12, 0, 5, 10],
     [3, 13, 4, 7, 15, 2, 8, 14, 12, 0, 1, 10, 6, 9, 11, 5],
     [0, 14, 7, 11, 10, 4, 13, 1, 5, 8, 12, 6, 9, 3, 2, 15],
     [13, 8, 10, 1, 3, 15, 4, 2, 11, 6, 7, 12, 0, 5, 14, 9]]
  ok := by decide

/-- S-box `S_3` (41_sbox_network.md R107). -/
def sbox3 : SBoxTable where
  rows :=
    [[10, 0, 9, 14, 6, 3, 15, 5, 1, 13, 12, 7, 11, 4, 2, 8],
     [13, 7, 0, 9, 3, 4, 6, 10, 2, 8, 5, 14, 12, 11, 15, 1],
     [13, 6, 4, 9, 8, 15, 3, 0, 11, 1, 2, 12, 5, 10, 14, 7],
     [1, 10, 13, 0, 6, 9, 8, 7, 4, 15, 14, 3, 11, 5, 2, 12]]
  ok := by decide

/-- S-box `S_4` (41_sbox_network.md R108). -/
def sbox4 : SBoxTable where
  rows :=
    [[7, 13, 14, 3, 0, 6, 9, 10, 1, 2, 8, 5, 11, 12, 4, 15],
     [13, 8, 11, 5, 6, 15, 0, 3, 4, 7, 2, 12, 1, 10, 14, 9],
     [10, 6, 9, 0, 12, 11, 7, 13, 15, 1, 3, 14, 5, 2, 8, 4],
     [3, 15, 0, 6, 10, 1, 13, 8, 9, 4, 5, 11, 12, 7, 2, 14]]
  ok := by decide

/-- S-box `S_5` (41_sbox_network.md R109). -/
def sbox5 : SBoxTable where
  rows :=
    [[2, 12, 4, 1, 7, 10, 11, 6, 8, 5, 3, 15, 13, 0, 14, 9],
     [14, 11, 2, 12, 4, 7, 13, 1, 5, 0, 15, 10, 3, 9, 8, 6],
     [4, 2, 1, 11, 10, 13, 7, 8, 15, 9, 12, 5, 6, 3, 0, 14],
     [11, 8, 12, 7, 1, 14, 2, 13, 6, 15, 0, 9, 10, 4, 5, 3]]
  ok := by decide

/-- S-box `S_6` (41_sbox_network.md R110). -/
def sbox6 : SBoxTable where
  rows :=
    [[12, 1, 10, 15, 9, 2, 6, 8, 0, 13, 3, 4, 14, 7, 5, 11],
     [10, 15, 4, 2, 7, 12, 9, 5, 6, 1, 13, 14, 0, 11, 3, 8],
     [9, 14, 15, 5, 2, 8, 12, 3, 7, 0, 4, 10, 1, 13, 11, 6],
     [4, 3, 2, 12, 9, 5, 15, 10, 11, 14, 1, 7, 6, 0, 8, 13]]
  ok := by decide

/-- S-box `S_7` (41_sbox_network.md R111). -/
def sbox7 : SBoxTable where
  rows :=
    [[4, 11, 2, 14, 15, 0, 8, 13, 3, 12, 9, 7, 5, 10, 6, 1],
     [13, 0, 11, 7, 4, 9, 1, 10, 14, 3, 5, 12, 2, 15, 8, 6],
     [1, 4, 11, 13, 12, 3, 7, 14, 10, 15, 6, 8, 0, 5, 9, 2],
     [6, 11, 13, 8, 1, 4, 10, 7, 9, 5, 0, 15, 14, 2, 3, 12]]
  ok := by decide

/-- S-box `S_8` (41_sbox_network.md R112). -/
def sbox8 : SBoxTable where
  rows :=
    [[13, 2, 8, 4, 6, 15, 11, 1, 10, 9, 3, 14, 5, 0, 12, 7],
     [1, 15, 13, 8, 10, 3, 7, 4, 12, 5, 6, 11, 0, 14, 9, 2],
     [7, 11, 4, 1, 9, 12, 14, 2, 0, 6, 10, 13, 15, 3, 5, 8],
     [2, 1, 14, 7, 4, 10, 8, 13, 15, 12, 9, 0, 3, 5, 6, 11]]
  ok := by decide

/-- The eight boxes in chunk order, with the chunk's least bit number `(8-n)*6` (41_sbox_network.md R101): "Chunk `n`
is looked up in S-box `n` and in no other" (R103). -/
def sboxes : List (SBoxTable × Nat) :=
  [(sbox1, 42), (sbox2, 36), (sbox3, 30), (sbox4, 24), (sbox5, 18), (sbox6, 12), (sbox7, 6), (sbox8, 0)]

/-- `row = c[5]*2 + c[0]` (41_sbox_network.md R102). -/
def chunkRow (c : Chunk) : Nat := (c.getLsbD 5).toNat * 2 + (c.getLsbD 0).toNat

/-- `col = c[4:1]` (41_sbox_network.md R102). -/
def chunkCol (c : Chunk) : Nat := (c.extractLsb' 1 4).toNat

/-- `S_n[row(c)][col(c)]`, a 4-bit value (41_sbox_network.md R103); the box's own type gives it 4 rows of 16 values. -/
def lookup (t : SBoxTable) (c : Chunk) : Nibble :=
  BitVec.ofNat 4 ((t.rows.getD (chunkRow c) []).getD (chunkCol c) 0)

/-- One step of R100's loop: shift left by four and bring in the nibble of the chunk at bit `lo`. -/
def shiftInNibble (x : BitVec 48) (acc : BitVec 32) (b : SBoxTable × Nat) : BitVec 32 :=
  (acc <<< 4) ||| (lookup b.1 (x.extractLsb' b.2 6)).setWidth 32

/-- `SBox(x)`: chunk 1's nibble most significant (41_sbox_network.md R100). -/
def sboxNet (x : BitVec 48) : BitVec 32 := sboxes.foldl (shiftInNibble x) 0#32

end Sys2Proof.Machine
end

