-- ==== Sys2Proof/Machine/BlockTransform.lean ====
section
/-! DEFINITION. The Feistel Round Function `F` (43_feistel_round.md), the Block Transform `DES` (44_block_transform.md
R150 to R156) and the command that applies it, `XFORM` (R159). -/

namespace Sys2Proof.Machine

/-- `F(R, k) = Permute(SBox(Permute(R, 32, E) XOR k), 32, P)` (43_feistel_round.md R140). -/
def feistel (r : Half) (k : Subkey) : Half := permute roundPerm (sboxNet (permute expansion r ^^^ k))

/-- `L` and `R` (44_block_transform.md R152). -/
structure Halves where
  left : Half
  right : Half
deriving DecidableEq, Repr

/-- Stages 1 and 2: the initial permutation and the split (44_block_transform.md R151 and R152). -/
def splitBlock (block : Block) : Halves where
  left := (permute ip block).extractLsb' 32 32
  right := (permute ip block).extractLsb' 0 32

/-- One round: both new halves from the old pair (44_block_transform.md R153). -/
def desRound (h : Halves) (k : Subkey) : Halves where
  left := h.right
  right := h.left ^^^ feistel h.right k

/-- The sixteen rounds, the schedule consumed in index order whatever the direction was (44_block_transform.md R153). -/
def desRounds (sched : Schedule) (h : Halves) : Halves := sched.toList.foldl desRound h

/-- The final swap (44_block_transform.md R154): "concatenate as R‖L, *not* L‖R". -/
def joinSwapped (h : Halves) : Block := h.right ++ h.left

/-- `DES(block, S)` (44_block_transform.md R150). -/
def des (block : Block) (sched : Schedule) : Block :=
  permute fp (joinSwapped (desRounds sched (splitBlock block)))

/-- `XFORM` (44_block_transform.md R159): `respond(0b00, DES(data, RK))`, or `NoSchedule`. The command has no direction
of its own. -/
def execXform (block : Block) (s : State) : Host.Outcome State Fault Refusal :=
  answerWithSchedule (des block (readSchedule s)) s

end Sys2Proof.Machine
end

