-- ==== Sys2Proof/Machine/KeySchedule.lean ====
section
/-! DEFINITION. The Key Schedule `KS` (42_key_schedule.md R120 to R128) and the two commands that expose it, `KEYGEN`
(R130) and `RDKEY` (R131). -/

namespace Sys2Proof.Machine

/-- `SHIFT[r]` (42_key_schedule.md R123): "Rounds {0,1,8,15} shift by 1 bit, all others shift by 2 bits". -/
def shiftCount (r : Nat) : Nat := [1, 1, 2, 2, 2, 2, 2, 2, 1, 2, 2, 2, 2, 2, 2, 1].getD r 2

/-- `rotl28(v, s)`: left rotation inside the 28-bit field (42_key_schedule.md R124). -/
def rotl28 (v : KeyHalf) (s : Nat) : KeyHalf := (v <<< s) ||| (v >>> (28 - s))

/-- `(C_r, D_r)` (42_key_schedule.md R122 and R125): the halves of the permuted key, each rotated by `SHIFT[r]` from
one round to the next. -/
def keyHalves (key : Key) : Nat → KeyHalf × KeyHalf
  | 0 => ((permute pc1 key).extractLsb' 28 28, (permute pc1 key).extractLsb' 0 28)
  | r + 1 => (rotl28 (keyHalves key r).1 (shiftCount r), rotl28 (keyHalves key r).2 (shiftCount r))

/-- `K[r] = Permute(C_(r+1) ‖ D_(r+1), 56, PC2)` (42_key_schedule.md R125). -/
def roundKey (key : Key) (r : Nat) : Subkey :=
  permute pc2 ((keyHalves key (r + 1)).1 ++ (keyHalves key (r + 1)).2)

/-- `K[0], K[1], ..., K[15]` in the order they are derived (42_key_schedule.md R125). -/
def derivedKeys (key : Key) : Schedule := Vector.ofFn fun r => roundKey key r.val

/-- "swap subkey[i] with subkey[15-i] for i in 0..7" (42_key_schedule.md R127), eight swaps. -/
def reversePairwise (sched : Schedule) : Schedule :=
  (List.range 8).foldl (fun k i => k.swapIfInBounds i (15 - i)) sched

/-- `KS(key, dir)` (42_key_schedule.md R120): total on every key; parity is not looked at (R129). -/
def ks (key : Key) : Direction → Schedule
  | .encrypt => derivedKeys key
  | .decrypt => reversePairwise (derivedKeys key)

/-- `KEYGEN` (42_key_schedule.md R130): `RK <- KS(data, dir)` and `SCHED_VALID <- 1` as one update, then
`respond(0b00, 0)`. Neither the key nor the direction is kept (10_state.md R25). -/
def execKeygen (dir : Direction) (key : Key) (s : State) : Host.Outcome State Fault Refusal :=
  .next (respond .ok 0#64 (loadSchedule (ks key dir) s))

/-- `RDKEY` (42_key_schedule.md R131): `respond(0b00, zext_64(RK[idx]))`, or `NoSchedule`. -/
def execRdkey (idx : Fin 16) (s : State) : Host.Outcome State Fault Refusal :=
  answerWithSchedule (zext64 (readSubkey idx s)) s

end Sys2Proof.Machine
end

