-- ==== Sys2Proof/Machine/Dispatch.lean ====
section
/-! DEFINITION. The dispatch of 30_encoding.md R69: one arm per command, each a direct call of its meaning. -/

namespace Sys2Proof.Machine

def exec (i : Instr) (s : State) : Host.Outcome State Fault Refusal :=
  match i with
  | .keygen dir key => Sys2Proof.Machine.execKeygen dir key s
  | .xform block => Sys2Proof.Machine.execXform block s
  | .rdkey idx => Sys2Proof.Machine.execRdkey idx s

end Sys2Proof.Machine
end

