-- ==== Sys2Proof/Machine/Step.lean ====
section
/-! DEFINITION. One step of the machine: one event of the command port, as one atomic action (20_memory.md R46, R48). The
encoding is checked first and the state second (60_exceptions.md R184). -/

namespace Sys2Proof.Machine

/-- One step: a presented command is decoded and executed (30_encoding.md R69), a reset is taken
(70_reset_and_hazards.md R202), and with nothing presented the core waits. -/
def step (s : State) : Host.Outcome State Fault Refusal :=
  match fetch s with
  | none => idle s
  | some (.reset abandoned, t) => takeReset abandoned t
  | some (.command w, t) =>
    match decode w with
    | .ok i => exec i t
    | .error _ => raise .illegalCommand t

/-- `s` with the table word `w` presented as the very next command word: it stands for the host's presenting it. -/
def State.withFetchWord (s : State) (nbits w : Nat) : State := present (.command (tableWord nbits w)) s

end Sys2Proof.Machine
end

