-- ==== Sys2Proof/Machine/Batch.lean ====
section
/-! DEFINITION. The Batch Driver (45_batch_driver.md) and the textual operations (30_encoding.md R70 and R71), which are
nothing but sequences of command words. -/

namespace Sys2Proof.Machine

/-- `Batch(blocks, S)`: `outs[i] = DES(blocks[i], S)` (45_batch_driver.md R170). -/
def batch (blocks : List Block) (sched : Schedule) : List Block := blocks.map fun b => des b sched

/-- `XBATCH b0 ... b(n-1)`: the commands `XFORM b0`, ..., `XFORM b(n-1)` (30_encoding.md R71); none for n = 0. -/
def xbatch (blocks : List Block) : List Instr := blocks.map .xform

/-- `RDSCHED`: the commands `RDKEY 0`, ..., `RDKEY 15` (30_encoding.md R71). -/
def rdsched : List Instr := (List.finRange 16).map .rdkey

/-- The commands a textual operation stands for (30_encoding.md R70 and R71), for one that is well formed. -/
def assemble (t : TextOp) : Option (List Instr) :=
  if t.wf then
    some <| match t with
    | .keygenE key => [.keygen .encrypt (BitVec.ofNat 64 key)]
    | .keygenD key => [.keygen .decrypt (BitVec.ofNat 64 key)]
    | .xform block => [.xform (BitVec.ofNat 64 block)]
    | .rdkey idx => [.rdkey (Fin.ofNat 16 idx)]
    | .xbatch blocks => xbatch (blocks.map (BitVec.ofNat 64))
    | .rdsched => rdsched
  else none

/-- The events by which the host presents a sequence of commands (30_encoding.md R61). -/
def presentAll (is : List Instr) : List PortEvent := is.map fun i => .command (encode i)

/-- `d` hexadecimal digits, most significant first. -/
def hexDigits (d n : Nat) : String :=
  String.ofList ((List.range d).reverse.map fun i => (Nat.digitChar (n / 16 ^ i % 16)).toUpper)

/-- The text of a command (30_encoding.md R70): 16 hexadecimal digits after `0x`, an index in decimal. -/
def instrText : Instr → String
  | .keygen .encrypt key => "KEYGEN.E 0x" ++ hexDigits 16 key.toNat
  | .keygen .decrypt key => "KEYGEN.D 0x" ++ hexDigits 16 key.toNat
  | .xform block => "XFORM 0x" ++ hexDigits 16 block.toNat
  | .rdkey idx => "RDKEY " ++ toString idx.val

/-- How a response is shown, `status:data` (30_encoding.md R67). -/
def responseText (r : ResponseWord) : String :=
  hexDigits 1 (r.extractLsb' 64 2).toNat ++ ":" ++ hexDigits 16 (r.extractLsb' 0 64).toNat

end Sys2Proof.Machine
end

