-- ==== Sys2Proof/Safety.lean ====
section
/-! DEFINITION. The terms claims are stated in: the spec's own `Step` written as its pseudocode has it (30_encoding.md
R69), its fold over a stream of events (20_memory.md R48, 70_reset_and_hazards.md R202), and the properties of a state
that runs keep. -/

namespace Sys2Proof

open Sys2Proof.Machine

/-- `raise IllegalCommand = state unchanged; respond(0b01, 0)` (30_encoding.md R69). -/
def specIllegal (a : Arch) : Arch × ResponseWord := (a, 0b01#2 ++ 0#64)

/-- `raise NoSchedule = state unchanged; respond(0b10, 0)` (30_encoding.md R69). -/
def specNoSchedule (a : Arch) : Arch × ResponseWord := (a, 0b10#2 ++ 0#64)

/-- `Step(s, CW)` line by line as 30_encoding.md R69 has it, over the architectural state alone. -/
def specStep (a : Arch) (cw : CommandWord) : Arch × ResponseWord :=
  let op := cw.extractLsb' 70 2
  let dir := cw.getLsbD 69
  let rsv := cw.getLsbD 68
  let idx := cw.extractLsb' 64 4
  let data := cw.extractLsb' 0 64
  if op = 0b11#2 then specIllegal a
  else if rsv then specIllegal a
  else if op = 0b00#2 then
    if idx ≠ 0#4 then specIllegal a
    else ({ rk := ks data (if dir then .decrypt else .encrypt), schedValid := true }, 0b00#2 ++ 0#64)
  else if op = 0b01#2 then
    if dir ∨ idx ≠ 0#4 then specIllegal a
    else if a.schedValid = false then specNoSchedule a
    else (a, 0b00#2 ++ des data a.rk)
  else
    if dir ∨ data ≠ 0#64 then specIllegal a
    else if a.schedValid = false then specNoSchedule a
    else (a, 0b00#2 ++ zext64 (a.rk[idx.toNat]'(idx.isLt)))

/-- The fold `(s1, r1) = Step(s0, c1), (s2, r2) = Step(s1, c2), ...` (20_memory.md R48), with reset as the second kind
of event (70_reset_and_hazards.md R202). -/
def specRun : List PortEvent → Arch → Arch × List ResponseWord
  | [], a => (a, [])
  | .reset _ :: es, _ => specRun es Arch.reset
  | .command w :: es, a =>
    ((specRun es (specStep a w).1).1, (specStep a w).2 :: (specRun es (specStep a w).1).2)

/-- The command words 60_exceptions.md R182 lists as illegal. -/
def illegalPattern (w : CommandWord) : Prop :=
  w.extractLsb' 70 2 = 0b11#2 ∨ w.getLsbD 68 = true ∨
  (w.extractLsb' 70 2 = 0b00#2 ∧ w.extractLsb' 64 4 ≠ 0#4) ∨
  (w.extractLsb' 70 2 = 0b01#2 ∧ (w.getLsbD 69 = true ∨ w.extractLsb' 64 4 ≠ 0#4)) ∨
  (w.extractLsb' 70 2 = 0b10#2 ∧ (w.getLsbD 69 = true ∨ w.extractLsb' 0 64 ≠ 0#64))

/-- What an event leaves in the architectural state if it writes it at all: reset and a legal `KEYGEN` do
(10_state.md R33). -/
def writes : PortEvent → Option Arch
  | .reset _ => some Arch.reset
  | .command w =>
    match decode w with
    | .ok (.keygen dir key) => some { rk := ks key dir, schedValid := true }
    | _ => none

/-- The architectural state that the most recent writing event of a history leaves, or the one before the history if
none of its events writes (10_state.md R33). -/
def archAfter (a : Arch) (es : List PortEvent) : Arch := (es.reverse.findSome? writes).getD a

/-- 10_state.md R32: "if `SCHED_VALID` = 1 then there is a 64-bit key `k` and a direction `d` such that
`RK[i] = KS(k, d)[i]`". -/
def KeyGenerated (a : Arch) : Prop := a.schedValid = true → ∃ key dir, a.rk = ks key dir

/-- The status of a response word (30_encoding.md R67). -/
def statusOf (r : ResponseWord) : BitVec 2 := r.extractLsb' 64 2

/-- The data of a response word (30_encoding.md R67). -/
def dataOf (r : ResponseWord) : BitVec 64 := r.extractLsb' 0 64

/-- Status 11 is never produced, and a fault carries no data (30_encoding.md R67, 60_exceptions.md R186). -/
def ResponseWellFormed (r : ResponseWord) : Prop :=
  statusOf r ≠ 0b11#2 ∧ (statusOf r ≠ 0b00#2 → dataOf r = 0#64)

/-- Two states the host cannot tell apart: they may differ in `RK`, and only while `SCHED_VALID` = 0
(10_state.md R31). -/
def SameButHiddenRk (s t : State) : Prop :=
  s.port = t.port ∧ s.responses = t.responses ∧ s.arch.schedValid = t.arch.schedValid ∧
    (s.arch.schedValid = true → s.arch.rk = t.arch.rk)

/-- The number of one bits of a value (40_permutation_engine.md R85). -/
def oneBits {w : Nat} (x : BitVec w) : Nat := (List.range w).countP fun i => x.getLsbD i

/-- `ROT[r] = SHIFT[0] + ... + SHIFT[r]` (42_key_schedule.md R126). -/
def totalRotation (r : Nat) : Nat :=
  [1, 2, 4, 6, 8, 10, 12, 14, 15, 17, 19, 21, 23, 25, 27, 28].getD r 0

end Sys2Proof
end

