-- ==== Sys2Proof/Certificates/Slice0/Obligations.lean ====
section
/-! DEFINITION. The statements for the provers, in the order of the spec's files: encoding, one step, streams of
commands, the state, the functions. Each docstring names the rule of spec/ it formalises. `present e s` is the state `s`
with the event `e` at the head of its command port. -/

open Sys2Proof Sys2Proof.Machine

/-! ## The encoding (30_encoding.md) -/

/-- Decode and encode agree: no bit of a command word is dropped by the encoder (R62, R65, R70). -/
def Obligations.DecodeOfEncode : Prop :=
  ∀ i : Instr, decode (encode i) = .ok i

/-- And no bit of a legal word is ignored by the decoder (R65: unused fields are zero). -/
def Obligations.EncodeOfDecode : Prop :=
  ∀ (w : CommandWord) (i : Instr), decode w = .ok i → encode i = w

/-- Words written out in 95_test_vectors.md section 7 decode to the commands listed there, and illegal ones to none. -/
def Obligations.SpecWordsDecode : Prop :=
  decode 0x00133457799BBCDFF1#72 = .ok (.keygen .encrypt 0x133457799BBCDFF1#64) ∧
  decode 0x20133457799BBCDFF1#72 = .ok (.keygen .decrypt 0x133457799BBCDFF1#64) ∧
  decode 0x400123456789ABCDEF#72 = .ok (.xform 0x0123456789ABCDEF#64) ∧
  decode 0x850000000000000000#72 = .ok (.rdkey 5) ∧
  decode 0x8F0000000000000000#72 = .ok (.rdkey 15) ∧
  decode 0xC0133457799BBCDFF1#72 = .error .reservedOp ∧
  decode 0x500123456789ABCDEF#72 = .error .reservedBit ∧
  decode 0x2F133457799BBCDFF1#72 = .error .unusedIdx ∧
  decode 0x600123456789ABCDEF#72 = .error .unusedDir ∧
  decode 0x838000000000000000#72 = .error .unusedData

/-- R66: a word is legal exactly when it matches one of the three rows; a legal word executes as a command; every other
word is answered with status 01 and changes no state; 19 command bytes can begin a legal word. -/
def Obligations.LegalWordsAreTableRows : Prop :=
  (∀ (w : CommandWord) (s : State),
    (legalWord w = true → ∃ i, decode w = .ok i ∧ encode i = w ∧ step (present (.command w) s) = exec i s) ∧
    (legalWord w = false →
      step (present (.command w) s) = .next { s with responses := s.responses ++ [0b01#2 ++ 0#64] })) ∧
  (∀ b : BitVec 8, (∃ data : BitVec 64, legalWord (b ++ data) = true) ↔
    b ∈ [0x00#8, 0x20#8, 0x40#8, 0x80#8, 0x81#8, 0x82#8, 0x83#8, 0x84#8, 0x85#8, 0x86#8, 0x87#8, 0x88#8, 0x89#8, 0x8A#8,
      0x8B#8, 0x8C#8, 0x8D#8, 0x8E#8, 0x8F#8])

/-- R182: the words that raise `IllegalCommand` are exactly the listed ones, that is all that are not legal, in every
state alike. -/
def Obligations.IllegalCommandWords : Prop :=
  ∀ w : CommandWord,
    (illegalPattern w ↔ legalWord w = false) ∧
    ∀ s : State, illegalPattern w ↔
      step (present (.command w) s) = .next { s with responses := s.responses ++ [0b01#2 ++ 0#64] }

/-- R68: in the answer to `RDKEY` the subkey is right-justified, its top bit, the one the first entry of PC-2 chooses,
at `RW[47]`, and `RW[63:48]` is 0. -/
def Obligations.RdkeyAnswerRightJustified : Prop :=
  (∀ (s : State) (idx : Fin 16), s.arch.schedValid = true →
    ∃ r : ResponseWord, exec (.rdkey idx) s = .next { s with responses := s.responses ++ [r] } ∧
      r.extractLsb' 0 48 = s.arch.rk[idx] ∧ r.getLsbD 47 = s.arch.rk[idx].msb ∧ r.extractLsb' 48 16 = 0#16 ∧
      statusOf r = 0b00#2) ∧
  (∀ cd : BitVec 56, (permute pc2 cd).msb = pos cd (pc2.entries.getD 0 0))

/-- R67: every command word gets exactly one response word, with the status and the data the rule lists; status 11 is
never produced and a fault's data is zero. -/
def Obligations.OneResponsePerCommand : Prop :=
  ∀ (s : State) (w : CommandWord), ∃ (t : State) (r : ResponseWord),
    step (present (.command w) s) = .next t ∧ t.responses = s.responses ++ [r] ∧
    statusOf r ≠ 0b11#2 ∧ (statusOf r ≠ 0b00#2 → dataOf r = 0#64) ∧
    (∀ e, decode w = .error e → statusOf r = 0b01#2) ∧
    (∀ dir key, decode w = .ok (.keygen dir key) → statusOf r = 0b00#2 ∧ dataOf r = 0#64) ∧
    (∀ block, decode w = .ok (.xform block) →
      if s.arch.schedValid then statusOf r = 0b00#2 ∧ dataOf r = des block s.arch.rk else statusOf r = 0b10#2) ∧
    (∀ idx, decode w = .ok (.rdkey idx) →
      if s.arch.schedValid then statusOf r = 0b00#2 ∧ dataOf r = zext64 s.arch.rk[idx] else statusOf r = 0b10#2)

/-! ## One step -/

/-- A step runs the decoded instruction: a word that decodes to `i` at the head of the port makes the step `exec i` on
the state with that word taken off the port, and nothing else around it. -/
def Obligations.StepRunsDecodedCommand : Prop :=
  ∀ (s : State) (w : CommandWord) (i : Instr), decode w = .ok i → step (present (.command w) s) = exec i s

/-- With nothing presented the core waits (the model's choice, assumption 2). -/
def Obligations.StepWaitsWhenNothingPresented : Prop :=
  ∀ s : State, s.port = [] → step s = .next s

/-- R69, R180, R187: no step stops the machine, whatever the state and whatever is presented. -/
def Obligations.StepAlwaysGoesOn : Prop :=
  ∀ s : State, ∃ t, step s = .next t

/-- R69: on every state and every 72-bit word the step is the spec's `Step`, line for line. -/
def Obligations.StepRefinesSpecStep : Prop :=
  ∀ (s : State) (w : CommandWord),
    step (present (.command w) s) =
      .next { arch := (specStep s.arch w).1, port := s.port,
              responses := s.responses ++ [(specStep s.arch w).2] }

/-- R130: `KEYGEN` completes in every state: all of `RK` is `KS(key, dir)`, `SCHED_VALID` is 1, the answer is `0:0`, and
nothing else changes. -/
def Obligations.KeygenLoadsSchedule : Prop :=
  ∀ (dir : Direction) (key : Key) (s : State),
    exec (.keygen dir key) s =
      .next { arch := { rk := ks key dir, schedValid := true }, port := s.port,
              responses := s.responses ++ [0b00#2 ++ 0#64] }

/-- R159: with a valid schedule `XFORM` completes with `DES(block, RK)` as its answer, and changes no state. -/
def Obligations.XformTransformsBlock : Prop :=
  ∀ (block : Block) (s : State), s.arch.schedValid = true →
    exec (.xform block) s = .next { s with responses := s.responses ++ [0b00#2 ++ des block s.arch.rk] }

/-- R131: with a valid schedule `RDKEY` completes with `zext_64(RK[idx])` as its answer, for every index, and changes no
state. -/
def Obligations.RdkeyReadsSubkey : Prop :=
  ∀ (idx : Fin 16) (s : State), s.arch.schedValid = true →
    exec (.rdkey idx) s = .next { s with responses := s.responses ++ [0b00#2 ++ zext64 s.arch.rk[idx]] }

/-- The frame of the three commands: the port is left alone, exactly one response is added after the earlier ones,
`XFORM` and `RDKEY` write no register and no flag, and `KEYGEN` writes the registers and the flag as R130 says. -/
def Obligations.CommandFrame : Prop :=
  ∀ (i : Instr) (s t : State), exec i s = .next t →
    t.port = s.port ∧ (∃ r, t.responses = s.responses ++ [r]) ∧
    (match i with
     | .keygen dir key => t.arch.rk = ks key dir ∧ t.arch.schedValid = true
     | .xform _ => t.arch = s.arch
     | .rdkey _ => t.arch = s.arch)

/-- R183: `NoSchedule` is raised exactly by a legal `XFORM` or `RDKEY` word when `SCHED_VALID` = 0; it changes no state
and is answered `2:0`. `KEYGEN` never raises it. -/
def Obligations.NoScheduleRaisedExactly : Prop :=
  ∀ (s : State) (w : CommandWord),
    (s.arch.schedValid = false ∧ (xformRow.matchesWord w = true ∨ rdkeyRow.matchesWord w = true)) ↔
      step (present (.command w) s) = .next { s with responses := s.responses ++ [0b10#2 ++ 0#64] }

/-- R184: the encoding is checked first and the state second, so a word that is no command is answered
`IllegalCommand`, and only that, with or without a schedule. -/
def Obligations.IllegalCommandWinsOverNoSchedule : Prop :=
  ∀ (s : State) (w : CommandWord), legalWord w = false → s.arch.schedValid = false →
    ∃ t r, step (present (.command w) s) = .next t ∧ t.responses = s.responses ++ [r] ∧
      statusOf r = 0b01#2 ∧ dataOf r = 0#64 ∧ t.arch = s.arch

/-- R187: a fault is not sticky: whatever the host presents next is executed exactly as if the faulting command had
never been presented, and its response is the same. -/
def Obligations.FaultLeavesNoTrace : Prop :=
  ∀ (s t : State) (w : CommandWord) (r : ResponseWord) (e : PortEvent),
    step (present (.command w) s) = .next t → t.responses = s.responses ++ [r] → statusOf r ≠ 0b00#2 →
      ∃ (u v : State) (answer : List ResponseWord),
        step (present e t) = .next u ∧ step (present e s) = .next v ∧
        u.arch = v.arch ∧ u.port = v.port ∧
        u.responses = s.responses ++ [r] ++ answer ∧ v.responses = s.responses ++ answer

/-- R202: a reset takes every state to the reset state of the core, whatever commands it cuts short, with no response
word of its own (that delivered responses stay with the host is the model's choice, assumption 3). -/
def Obligations.ResetFromEveryState : Prop :=
  ∀ (s : State) (abandoned : List CommandWord),
    step (present (.reset abandoned) s) = .next { s with arch := Arch.reset } ∧ Arch.reset.schedValid = false

/-- R200, R201: after reset `SCHED_VALID` is 0, no command is in progress and no response is pending. -/
def Obligations.StateAfterReset : Prop :=
  State.reset.arch.schedValid = false ∧ State.reset.arch = Arch.reset ∧ State.reset.port = [] ∧
    State.reset.responses = []

/-! ## Streams of commands -/

/-- R48: the behaviour of any command sequence from any state is exactly the fold of `Step`: commands take effect one at
a time in order, and the responses come out in the same order, one per command. -/
def Obligations.CommandStreamIsFoldOfStep : Prop :=
  ∀ (s : State) (ws : List CommandWord) (rest : List PortEvent), s.port = ws.map .command ++ rest →
    Host.Core.run core ws.length s =
      .next { arch := (specRun (ws.map .command) s.arch).1, port := rest,
              responses := s.responses ++ (specRun (ws.map .command) s.arch).2 } ∧
    (specRun (ws.map .command) s.arch).2.length = ws.length

/-- R202: the same with resets anywhere in the stream: a reset is a second kind of event beside `Step`. -/
def Obligations.EventStreamIsFoldWithResets : Prop :=
  ∀ (s : State) (es rest : List PortEvent), s.port = es ++ rest →
    Host.Core.run core es.length s =
      .next { arch := (specRun es s.arch).1, port := rest, responses := s.responses ++ (specRun es s.arch).2 }

/-- R33: after any history the architectural state is what the most recent reset or legal `KEYGEN` left, or the one
before the history if it holds neither; no other event has any part in it. -/
def Obligations.StateIsLastKeygenOrReset : Prop :=
  ∀ (s : State) (es rest : List PortEvent), s.port = es ++ rest →
    ∃ t, Host.Core.run core es.length s = .next t ∧ t.port = rest ∧ t.arch = archAfter s.arch es

/-- R32: if `SCHED_VALID` = 1, `RK` is the schedule of some key and direction: every step keeps this. -/
def Obligations.KeyGeneratedKeptByStep : Prop :=
  ∀ s t : State, KeyGenerated s.arch → step s = .next t → KeyGenerated t.arch

/-- R32 at reset. -/
def Obligations.KeyGeneratedAtReset : Prop :=
  KeyGenerated State.reset.arch

/-- R67, R186: that every delivered response word has a status other than 11, and no data with a fault status, is kept
by every step. -/
def Obligations.ResponsesWellFormedKeptByStep : Prop :=
  ∀ s t : State, (∀ r ∈ s.responses, ResponseWellFormed r) → step s = .next t →
    ∀ r ∈ t.responses, ResponseWellFormed r

/-- R31: no result depends on `RK` while `SCHED_VALID` = 0: two states that differ only there give the same responses
for as long as they run, and are equal in `RK` as soon as it can be read. -/
def Obligations.UnloadedScheduleUnobservable : Prop :=
  ∀ (n : Nat) (s t : State), SameButHiddenRk s t →
    ∃ s' t', Host.Core.run core n s = .next s' ∧ Host.Core.run core n t = .next t' ∧ SameButHiddenRk s' t'

/-- R23: `KEYGEN` is the only command that writes `RK`; it writes all sixteen registers and `SCHED_VALID` as one update;
between two `KEYGEN`s, and between a `KEYGEN` and a reset, the sixteen values do not change whatever else executes. -/
def Obligations.OnlyKeygenWritesSchedule : Prop :=
  (∀ (s : State) (w : CommandWord), ∃ t, step (present (.command w) s) = .next t ∧
    ((∃ dir key, decode w = .ok (.keygen dir key) ∧ t.arch = { rk := ks key dir, schedValid := true }) ∨
     ((∀ dir key, decode w ≠ .ok (.keygen dir key)) ∧ t.arch = s.arch))) ∧
  (∀ (s : State) (ws : List CommandWord) (rest : List PortEvent), s.port = ws.map .command ++ rest →
    (∀ w ∈ ws, ∀ dir key, decode w ≠ .ok (.keygen dir key)) →
      ∃ t, Host.Core.run core ws.length s = .next t ∧ t.arch.rk = s.arch.rk)

/-- R27: from reset `SCHED_VALID` is 0 until the first `KEYGEN` and 1 from then until the next reset; the answer to a
legal `XFORM` or `RDKEY` tells it. -/
def Obligations.SchedValidHistory : Prop :=
  ∀ (s : State) (es rest : List PortEvent), s.port = es ++ rest → s.arch = Arch.reset →
    ∃ t, Host.Core.run core es.length s = .next t ∧
      (t.arch.schedValid = true ↔
        ∃ before dir key after, es = before ++ [.command (encode (.keygen dir key))] ++ after ∧
          ∀ ab, PortEvent.reset ab ∉ after)

/-- R47: reading twice gives the same answer twice and changes nothing, and a repeated `KEYGEN` leaves the state of the
first. -/
def Obligations.CommandsAreIdempotent : Prop :=
  ∀ (i : Instr) (s t : State), exec i s = .next t →
    ∃ u, exec i t = .next u ∧ u.arch = t.arch ∧
      ((∀ dir key, i ≠ .keygen dir key) → ∃ r, t.responses = s.responses ++ [r] ∧ u.responses = t.responses ++ [r])

/-- R50: a `KEYGEN` is seen by every command after it and by none before it, with nothing needed in between. -/
def Obligations.KeygenSeenByLaterXformOnly : Prop :=
  ∀ (s : State) (b1 b2 : Block) (dir : Direction) (key : Key) (rest : List PortEvent), s.arch.schedValid = true →
    s.port = presentAll [.xform b1, .keygen dir key, .xform b2] ++ rest →
      Host.Core.run core 3 s =
        .next { arch := { rk := ks key dir, schedValid := true }, port := rest,
                responses := s.responses ++
                  [0b00#2 ++ des b1 s.arch.rk, 0b00#2 ++ 0#64, 0b00#2 ++ des b2 (ks key dir)] }

/-- R171, R172, R175: `XBATCH` under a valid schedule is answered by `Batch(blocks, RK)` in command order, without one by
`NoSchedule` for each block separately; the empty batch by nothing; the state is unchanged. -/
def Obligations.XbatchRealisesBatch : Prop :=
  ∀ (s : State) (blocks : List Block) (rest : List PortEvent), s.port = presentAll (xbatch blocks) ++ rest →
    Host.Core.run core blocks.length s =
      .next { arch := s.arch, port := rest,
              responses := s.responses ++
                (if s.arch.schedValid then (batch blocks s.arch.rk).map fun c => 0b00#2 ++ c
                 else List.replicate blocks.length (0b10#2 ++ 0#64)) }

/-- R72: `KEYGEN` followed by `RDSCHED` delivers the value `generate_schedule` returns, subkey 0 first. -/
def Obligations.RdschedDeliversSchedule : Prop :=
  ∀ (s : State) (dir : Direction) (key : Key) (rest : List PortEvent),
    s.port = presentAll (.keygen dir key :: rdsched) ++ rest →
      Host.Core.run core 17 s =
        .next { arch := { rk := ks key dir, schedValid := true }, port := rest,
                responses := s.responses ++
                  ((0b00#2 ++ 0#64) :: (ks key dir).toList.map fun k => 0b00#2 ++ zext64 k) }

/-- R204 with R157: what the core encrypts under a key it decrypts after one `KEYGEN.D` of the same key, from every
state. -/
def Obligations.CoreDecryptsWhatItEncrypted : Prop :=
  ∀ (s : State) (key : Key) (block : Block) (rest : List PortEvent),
    s.port = presentAll [.keygen .encrypt key, .xform block, .keygen .decrypt key,
      .xform (des block (ks key .encrypt))] ++ rest →
      ∃ t, Host.Core.run core 4 s = .next t ∧ t.port = rest ∧
        t.responses = s.responses ++
          [0b00#2 ++ 0#64, 0b00#2 ++ des block (ks key .encrypt), 0b00#2 ++ 0#64, 0b00#2 ++ block]

/-! ## The host's bytes (20_memory.md) -/

/-- R41: byte `bj` of the host's data is `w[63-8j : 56-8j]`, the most significant bit of `b0` is `w[63]`, and the bytes
come back from the word. -/
def Obligations.HostBytesMostSignificantFirst : Prop :=
  ∀ b : Vector Byte 8,
    wordOfBytes b = b[0] ++ b[1] ++ b[2] ++ b[3] ++ b[4] ++ b[5] ++ b[6] ++ b[7] ∧
    (∀ j : Fin 8, (wordOfBytes b).extractLsb' (56 - 8 * j.val) 8 = b[j]) ∧
    (wordOfBytes b).getLsbD 63 = b[0].msb ∧ pos (wordOfBytes b) 1 = b[0].msb ∧ bytesOfWord (wordOfBytes b) = b

/-! ## The Permutation Engine (40_permutation_engine.md) -/

/-- R81: output bit `n-1-i` is the input bit at MSB-1 position `T[i]`; an input with the one bit at position `p` gives
an output with one bit for each occurrence of `p` in the table. -/
def Obligations.PermuteClosedForm : Prop :=
  ∀ (w n : Nat) (t : PermTable w n) (i : Nat), i < n →
    (∀ x : BitVec w, (permute t x).getLsbD (n - 1 - i) = x.getLsbD (w - t.entries.getD i 0) ∧
      pos (permute t x) (i + 1) = pos x (t.entries.getD i 0)) ∧
    (∀ p, 1 ≤ p → p ≤ w → (permute t (BitVec.twoPow w (w - p))).getLsbD (n - 1 - i) = (t.entries.getD i 0 == p))

/-- R85: `Permute` is linear over exclusive-OR, takes zero to zero and all ones to all ones, for every table. -/
def Obligations.PermuteIsLinear : Prop :=
  ∀ (w n : Nat) (t : PermTable w n),
    permute t 0#w = 0#n ∧ permute t (BitVec.allOnes w) = BitVec.allOnes n ∧
    ∀ a b : BitVec w, permute t (a ^^^ b) = permute t a ^^^ permute t b

/-- R85: the three bijective tables keep the number of one bits. -/
def Obligations.BijectiveTablesKeepOneBits : Prop :=
  (∀ x : BitVec 64, oneBits (permute ip x) = oneBits x ∧ oneBits (permute fp x) = oneBits x) ∧
  (∀ x : BitVec 32, oneBits (permute roundPerm x) = oneBits x)

/-- R90: FP and IP undo one another. -/
def Obligations.FinalPermutationInvertsInitial : Prop :=
  ∀ x : BitVec 64, permute fp (permute ip x) = x ∧ permute ip (permute fp x) = x

/-! ## The S-Box Network (41_sbox_network.md) -/

/-- R103: chunk n is looked up in S-box n and in no other, and the output is the eight nibbles in chunk order, the first
most significant. -/
def Obligations.SboxNetIsEightNibbles : Prop :=
  ∀ x : BitVec 48,
    sboxNet x =
      lookup sbox1 (x.extractLsb' 42 6) ++ lookup sbox2 (x.extractLsb' 36 6) ++ lookup sbox3 (x.extractLsb' 30 6) ++
      lookup sbox4 (x.extractLsb' 24 6) ++ lookup sbox5 (x.extractLsb' 18 6) ++ lookup sbox6 (x.extractLsb' 12 6) ++
      lookup sbox7 (x.extractLsb' 6 6) ++ lookup sbox8 (x.extractLsb' 0 6) ∧
    (∀ n : Fin 8, (sboxNet x).extractLsb' ((7 - n.val) * 4) 4 =
      lookup (sboxes.map Prod.fst)[n] (x.extractLsb' ((7 - n.val) * 6) 6)) ∧
    (∀ (t : SBoxTable) (c : Chunk),
      (lookup t c).toNat = (t.rows.getD ((c.getLsbD 5).toNat * 2 + (c.getLsbD 0).toNat) []).getD (c.extractLsb' 1 4).toNat 0)

/-- R104: each row of each S-box takes the sixteen columns to the sixteen values, and no S-box is affine over
exclusive-OR. -/
def Obligations.SboxesNonlinear : Prop :=
  ∀ b ∈ sboxes,
    (∀ (hi lo : Bool) (v : Nibble), ∃ c : Chunk, c.getLsbD 5 = hi ∧ c.getLsbD 0 = lo ∧ lookup b.1 c = v) ∧
    ¬ ∀ x y z : Chunk, lookup b.1 (x ^^^ y ^^^ z) = lookup b.1 x ^^^ lookup b.1 y ^^^ lookup b.1 z

/-! ## The Key Schedule (42_key_schedule.md) -/

/-- R124: the rotation as numbers and as bits, the top `s` bits becoming the low `s`, with the rule's examples; `C` and
`D` are rotated separately. -/
def Obligations.RotationInTwentyEightBits : Prop :=
  (∀ (v : KeyHalf) (s : Nat), s = 1 ∨ s = 2 →
    (rotl28 v s).toNat = ((v.toNat <<< s) ||| (v.toNat >>> (28 - s))) &&& 0xFFFFFFF ∧
    (∀ j, j < 28 → (rotl28 v s).getLsbD j = v.getLsbD ((j + 28 - s) % 28)) ∧
    (rotl28 v s).extractLsb' 0 s = v.extractLsb' (28 - s) s) ∧
  (∀ (key : Key) (r : Nat), keyHalves key (r + 1) =
    (rotl28 (keyHalves key r).1 (shiftCount r), rotl28 (keyHalves key r).2 (shiftCount r))) ∧
  rotl28 0xF0CCAAF#28 1 = 0xE19955F#28 ∧ rotl28 0x8000000#28 1 = 0x0000001#28 ∧
  rotl28 0x8000000#28 2 = 0x0000002#28 ∧ rotl28 0xC000001#28 2 = 0x0000007#28

/-- R126: the total rotation when `K[r]` is taken is `ROT[r]`, so the last round's halves are the first ones. -/
def Obligations.SubkeysByTotalRotation : Prop :=
  ∀ key : Key,
    (∀ r : Fin 16, (ks key .encrypt)[r] =
      permute pc2 (((permute pc1 key).extractLsb' 28 28).rotateLeft (totalRotation r) ++
        ((permute pc1 key).extractLsb' 0 28).rotateLeft (totalRotation r))) ∧
    keyHalves key 16 = keyHalves key 0

/-- R127, R128: the encrypting order is the order of derivation, the decrypting one its reversal, entry `i` with entry
`15-i`; the values are the same sixteen; and reversing twice gives the original order. -/
def Obligations.ScheduleSymmetry : Prop :=
  (∀ (key : Key) (i : Fin 16),
    (ks key .encrypt)[i] = roundKey key i.val ∧
    (ks key .decrypt)[i] = roundKey key (15 - i.val) ∧
    (ks key .decrypt)[i] = (ks key .encrypt)[15 - i.val]) ∧
  (∀ key : Key, (ks key .decrypt).toList.Perm (ks key .encrypt).toList) ∧
  (∀ sched : Schedule, reversePairwise (reversePairwise sched) = sched)

/-- R129: keys that differ only in the eight parity positions have the same schedule in either direction. -/
def Obligations.ParityBitsIgnored : Prop :=
  ∀ (k1 k2 : Key) (dir : Direction), (k1 ^^^ k2) &&& 0xFEFEFEFEFEFEFEFE#64 = 0#64 → ks k1 dir = ks k2 dir

/-- R132: a key whose `C_0` and `D_0` are each all zeros or all ones gives sixteen equal subkeys, the same schedule in
both directions; the four keys the rule names give the subkeys it lists. -/
def Obligations.WeakKeySchedules : Prop :=
  (∀ (key : Key) (dir : Direction),
    ((keyHalves key 0).1 = 0#28 ∨ (keyHalves key 0).1 = BitVec.allOnes 28) →
    ((keyHalves key 0).2 = 0#28 ∨ (keyHalves key 0).2 = BitVec.allOnes 28) →
      ∀ i : Fin 16, (ks key dir)[i] = permute pc2 ((keyHalves key 0).1 ++ (keyHalves key 0).2)) ∧
  (∀ (dir : Direction) (i : Fin 16),
    (ks 0x0101010101010101#64 dir)[i] = 0x000000000000#48 ∧ (ks 0xFEFEFEFEFEFEFEFE#64 dir)[i] = 0xFFFFFFFFFFFF#48 ∧
    (ks 0x1F1F1F1F0E0E0E0E#64 dir)[i] = 0x000000FFFFFF#48 ∧ (ks 0xE0E0E0E0F1F1F1F1#64 dir)[i] = 0xFFFFFF000000#48)

/-! ## The Feistel round and the Block Transform (43_feistel_round.md, 44_block_transform.md) -/

/-- R143: complementing the half-block and the round key together leaves `F` unchanged. -/
def Obligations.FeistelComplement : Prop :=
  ∀ (r : Half) (k : Subkey), feistel (~~~r) (~~~k) = feistel r k

/-- R151 to R155: `DES` is the initial permutation, the split, sixteen rounds that consume the schedule in index order,
the swap and the final permutation. -/
def Obligations.DesRoundByRound : Prop :=
  ∀ (block : Block) (sched : Schedule), ∃ (left right : Nat → Half),
    left 0 = (permute ip block).extractLsb' 32 32 ∧ right 0 = (permute ip block).extractLsb' 0 32 ∧
    (∀ r : Fin 16, left (r.val + 1) = right r.val ∧
      right (r.val + 1) = left r.val ^^^ feistel (right r.val) sched[r]) ∧
    des block sched = permute fp (right 16 ++ left 16) ∧
    right 16 ++ left 16 = (left 15 ^^^ feistel (right 15) sched[15]) ++ right 15

/-- R157 in general: for any schedule and its reversal, the second pass undoes the first. -/
def Obligations.ReversedScheduleInvertsDes : Prop :=
  ∀ (block : Block) (sched reversed : Schedule), (∀ i : Fin 16, reversed[i] = sched[15 - i.val]) →
    des (des block sched) reversed = block

/-- R157: involution under matched schedules, with the directions either way round. -/
def Obligations.InvolutionUnderMatchedSchedules : Prop :=
  ∀ (key : Key) (block : Block),
    des (des block (ks key .encrypt)) (ks key .decrypt) = block ∧
    des (des block (ks key .decrypt)) (ks key .encrypt) = block

/-- R132, R159: under a schedule whose sixteen entries are all equal `XFORM` of the result of an `XFORM` is the block. -/
def Obligations.EqualSubkeysMakeXformSelfInverse : Prop :=
  ∀ (s : State) (block : Block) (k : Subkey) (rest : List PortEvent), s.arch.schedValid = true →
    (∀ i : Fin 16, s.arch.rk[i] = k) →
    s.port = presentAll [.xform block, .xform (des block s.arch.rk)] ++ rest →
      Host.Core.run core 2 s =
        .next { arch := s.arch, port := rest,
                responses := s.responses ++ [0b00#2 ++ des block s.arch.rk, 0b00#2 ++ block] }

/-- 95_test_vectors.md section 6.4: complementing the key and the block complements the result, in either direction. -/
def Obligations.DesComplementation : Prop :=
  ∀ (key : Key) (block : Block) (dir : Direction), des (~~~block) (ks (~~~key) dir) = ~~~(des block (ks key dir))
end

