-- ==== Sys2Proof/Laws/PerInstr.lean ====
section
/-! SUPPORT. Statements made per instruction. `TableRow`: an instruction's word lies in its own row of the opcode table
and in no other (30_encoding.md R66). -/

namespace Sys2Proof.Laws

/-- The encoded word matches the instruction's row, and every row it matches is that one. -/
def TableRow.Statement (i : Instr) : Prop :=
  i.row.matchesWord (encode i) = true ∧ ∀ r ∈ opcodeRows, r.matchesWord (encode i) = true → r = i.row

/-- A word as its command byte above its data word (30_encoding.md R62). -/
theorem packFields_eq_append (op : BitVec 2) (dir rsv : BitVec 1) (idx : BitVec 4) (data : BitVec 64) :
    packFields op dir rsv idx data = (op ++ dir ++ rsv ++ idx) ++ data := rfl

/-- Two concatenations are equal just when their parts are. -/
theorem append_inj {m n : Nat} {a c : BitVec m} {b d : BitVec n} : a ++ b = c ++ d ↔ a = c ∧ b = d := by
  constructor
  · intro h
    constructor <;> apply BitVec.eq_of_getLsbD_eq <;> intro i hi
    · have := congrArg (fun v => v.getLsbD (n + i)) h
      simpa [BitVec.getLsbD_append] using this
    · have := congrArg (fun v => v.getLsbD i) h
      simpa [BitVec.getLsbD_append, hi] using this
  · rintro ⟨rfl, rfl⟩
    rfl

/-- Matching a row, byte and data apart. -/
theorem matches_append (mb pb byte : BitVec 8) (md pd data : BitVec 64) :
    OpcodeRow.matchesWord { mask := mb ++ md, pattern := pb ++ pd } (byte ++ data) = true ↔
      byte &&& mb = pb ∧ data &&& md = pd := by
  have h : (byte ++ data) &&& (mb ++ md) = (byte &&& mb) ++ (data &&& md) := BitVec.and_append
  show ((byte ++ data) &&& (mb ++ md) == pb ++ pd) = true ↔ _
  rw [beq_iff_eq, h, append_inj]

/-- The three rows, byte and data apart. -/
theorem keygenRow_eq : keygenRow = { mask := 0xDF#8 ++ 0#64, pattern := 0x00#8 ++ 0#64 } := by decide

theorem xformRow_eq : xformRow = { mask := 0xFF#8 ++ 0#64, pattern := 0x40#8 ++ 0#64 } := by decide

theorem rdkeyRow_eq : rdkeyRow = { mask := 0xF0#8 ++ 0xFFFFFFFFFFFFFFFF#64, pattern := 0x80#8 ++ 0#64 } := by decide

/-- A word whose command byte is `b` lies in no row but the one its byte names. -/
theorem row_of_byte {b : BitVec 8} {data : BitVec 64} {own : OpcodeRow}
    (hk : b &&& 0xDF#8 = 0x00#8 → own = keygenRow) (hx : b &&& 0xFF#8 = 0x40#8 → own = xformRow)
    (hr : b &&& 0xF0#8 = 0x80#8 → own = rdkeyRow) :
    ∀ r ∈ opcodeRows, r.matchesWord (b ++ data) = true → r = own := by
  intro r hmem hm
  simp only [opcodeRows, List.mem_cons, List.not_mem_nil, or_false] at hmem
  rcases hmem with rfl | rfl | rfl
  · rw [keygenRow_eq, matches_append] at hm
    exact (hk hm.1).symm
  · rw [xformRow_eq, matches_append] at hm
    exact (hx hm.1).symm
  · rw [rdkeyRow_eq, matches_append] at hm
    exact (hr hm.1).symm

theorem TableRow.keygen (dir : Direction) (key : Key) : TableRow.Statement (.keygen dir key) := by
  constructor
  · show keygenRow.matchesWord _ = true
    rw [keygenRow_eq, encode, packFields_eq_append, matches_append]
    cases dir <;> exact ⟨by decide, by simp⟩
  · rw [encode, packFields_eq_append]
    cases dir <;> apply row_of_byte <;> first | (intro; rfl) | (intro h; exact absurd h (by decide))

theorem TableRow.xform (block : Block) : TableRow.Statement (.xform block) := by
  constructor
  · show xformRow.matchesWord _ = true
    rw [xformRow_eq, encode, packFields_eq_append, matches_append]
    exact ⟨by decide, by simp⟩
  · rw [encode, packFields_eq_append]
    apply row_of_byte <;> first | (intro; rfl) | (intro h; exact absurd h (by decide))

theorem TableRow.rdkey (idx : Fin 16) : TableRow.Statement (.rdkey idx) := by
  constructor
  · show rdkeyRow.matchesWord _ = true
    rw [rdkeyRow_eq, encode, packFields_eq_append, matches_append]
    exact ⟨by revert idx; decide, by simp⟩
  · rw [encode, packFields_eq_append]
    revert idx
    intro idx
    apply row_of_byte <;> first | (intro; rfl) | (intro h; exact absurd h (by revert idx; decide))

end Sys2Proof.Laws
end

