-- ==== Sys2Proof/Laws/Encoding.lean ====
section
/-! SUPPORT. The fields of a packed word, the word of its fields, and the two parts of a response word. -/

namespace Sys2Proof

/-- The upper part of a concatenation. -/
theorem extract_append_high {m n : Nat} (a : BitVec m) (b : BitVec n) : (a ++ b).extractLsb' n m = a := by
  apply BitVec.eq_of_getLsbD_eq
  intro i hi
  simp [BitVec.getLsbD_append, hi]

/-- The lower part of a concatenation. -/
theorem extract_append_low {m n : Nat} (a : BitVec m) (b : BitVec n) : (a ++ b).extractLsb' 0 n = b := by
  apply BitVec.eq_of_getLsbD_eq
  intro i hi
  simp [BitVec.getLsbD_append, hi]

/-- A bit of a packed word, by the field it lies in (30_encoding.md R62). -/
theorem getLsbD_packFields (op : BitVec 2) (dir rsv : BitVec 1) (idx : BitVec 4) (data : BitVec 64) (i : Nat) :
    (packFields op dir rsv idx data).getLsbD i =
      if i < 64 then data.getLsbD i else if i < 68 then idx.getLsbD (i - 64)
      else if i < 69 then rsv.getLsbD (i - 68) else if i < 70 then dir.getLsbD (i - 69) else op.getLsbD (i - 70) := by
  show (op ++ dir ++ rsv ++ idx ++ data).getLsbD i = _
  simp only [BitVec.getLsbD_append]
  split_ifs <;> first | omega | rfl

@[simp] theorem opField_packFields (op : BitVec 2) (dir rsv : BitVec 1) (idx : BitVec 4) (data : BitVec 64) :
    opField (packFields op dir rsv idx data) = op := by
  apply BitVec.eq_of_getLsbD_eq
  intro i hi
  simp only [opField, BitVec.getLsbD_extractLsb', getLsbD_packFields]
  interval_cases i <;> simp

@[simp] theorem dirField_packFields (op : BitVec 2) (dir rsv : BitVec 1) (idx : BitVec 4) (data : BitVec 64) :
    dirField (packFields op dir rsv idx data) = dir := by
  apply BitVec.eq_of_getLsbD_eq
  intro i hi
  simp only [dirField, BitVec.getLsbD_extractLsb', getLsbD_packFields]
  interval_cases i
  simp

@[simp] theorem rsvField_packFields (op : BitVec 2) (dir rsv : BitVec 1) (idx : BitVec 4) (data : BitVec 64) :
    rsvField (packFields op dir rsv idx data) = rsv := by
  apply BitVec.eq_of_getLsbD_eq
  intro i hi
  simp only [rsvField, BitVec.getLsbD_extractLsb', getLsbD_packFields]
  interval_cases i
  simp

@[simp] theorem idxField_packFields (op : BitVec 2) (dir rsv : BitVec 1) (idx : BitVec 4) (data : BitVec 64) :
    idxField (packFields op dir rsv idx data) = idx := by
  apply BitVec.eq_of_getLsbD_eq
  intro i hi
  simp only [idxField, BitVec.getLsbD_extractLsb', getLsbD_packFields]
  interval_cases i <;> simp

@[simp] theorem dataField_packFields (op : BitVec 2) (dir rsv : BitVec 1) (idx : BitVec 4) (data : BitVec 64) :
    dataField (packFields op dir rsv idx data) = data := by
  apply BitVec.eq_of_getLsbD_eq
  intro i hi
  simp [dataField, getLsbD_packFields, hi]

/-- A word is the packing of its five fields. -/
theorem packFields_of_fields (w : CommandWord) :
    packFields (opField w) (dirField w) (rsvField w) (idxField w) (dataField w) = w := by
  apply BitVec.eq_of_getLsbD_eq
  intro i hi
  simp only [getLsbD_packFields, opField, dirField, rsvField, idxField, dataField, BitVec.getLsbD_extractLsb']
  interval_cases i <;> simp

@[simp] theorem toBit_ofBit (b : BitVec 1) : (Direction.ofBit b).toBit = b := by
  revert b
  decide

@[simp] theorem ofBit_toBit (d : Direction) : Direction.ofBit d.toBit = d := by
  cases d <;> rfl

/-- The status of a response written as `status ‖ data`. -/
theorem statusOf_append (st : BitVec 2) (data : BitVec 64) : statusOf (st ++ data) = st := extract_append_high st data

/-- The data of a response written as `status ‖ data`. -/
theorem dataOf_append (st : BitVec 2) (data : BitVec 64) : dataOf (st ++ data) = data := extract_append_low st data

end Sys2Proof
end

