-- ==== Sys2Proof/Laws/State.lean ====
section
/-! SUPPORT. One lemma per field per update of the state, so that no proof unfolds a record update. -/

namespace Sys2Proof.Machine

@[simp] theorem setSchedValid_rk (b : Bool) (s : State) : (setSchedValid b s).arch.rk = s.arch.rk := rfl
@[simp] theorem setSchedValid_schedValid (b : Bool) (s : State) : (setSchedValid b s).arch.schedValid = b := rfl
@[simp] theorem setSchedValid_port (b : Bool) (s : State) : (setSchedValid b s).port = s.port := rfl
@[simp] theorem setSchedValid_responses (b : Bool) (s : State) : (setSchedValid b s).responses = s.responses := rfl

@[simp] theorem writeSchedule_rk (k : Schedule) (s : State) : (writeSchedule k s).arch.rk = k := rfl
@[simp] theorem writeSchedule_schedValid (k : Schedule) (s : State) :
    (writeSchedule k s).arch.schedValid = s.arch.schedValid := rfl
@[simp] theorem writeSchedule_port (k : Schedule) (s : State) : (writeSchedule k s).port = s.port := rfl
@[simp] theorem writeSchedule_responses (k : Schedule) (s : State) : (writeSchedule k s).responses = s.responses := rfl

@[simp] theorem loadSchedule_arch (k : Schedule) (s : State) :
    (loadSchedule k s).arch = { rk := k, schedValid := true } := rfl
@[simp] theorem loadSchedule_port (k : Schedule) (s : State) : (loadSchedule k s).port = s.port := rfl
@[simp] theorem loadSchedule_responses (k : Schedule) (s : State) : (loadSchedule k s).responses = s.responses := rfl

@[simp] theorem respond_arch (st : Status) (d : BitVec 64) (s : State) : (respond st d s).arch = s.arch := rfl
@[simp] theorem respond_port (st : Status) (d : BitVec 64) (s : State) : (respond st d s).port = s.port := rfl
@[simp] theorem respond_responses (st : Status) (d : BitVec 64) (s : State) :
    (respond st d s).responses = s.responses ++ [responseWord st d] := rfl

@[simp] theorem present_arch (e : PortEvent) (s : State) : (present e s).arch = s.arch := rfl
@[simp] theorem present_port (e : PortEvent) (s : State) : (present e s).port = e :: s.port := rfl
@[simp] theorem present_responses (e : PortEvent) (s : State) : (present e s).responses = s.responses := rfl

@[simp] theorem reset_schedValid : State.reset.arch.schedValid = false := rfl
@[simp] theorem reset_port : State.reset.port = [] := rfl
@[simp] theorem reset_responses : State.reset.responses = [] := rfl

/-- A state is known by its two registers and the two port fields. -/
theorem State.ext_fields {s t : State} (hrk : s.arch.rk = t.arch.rk) (hv : s.arch.schedValid = t.arch.schedValid)
    (hp : s.port = t.port) (hr : s.responses = t.responses) : s = t := by
  obtain ⟨⟨rk, v⟩, p, r⟩ := s
  simp_all

end Sys2Proof.Machine
end

