-- ==== Sys2Proof/Laws/Ops.lean ====
section
/-! SUPPORT. For each shared operation, what it can do, said once. -/

namespace Sys2Proof.Machine

/-- Reading an operand from the state: one register, or all sixteen. -/
@[simp] theorem readSubkey_eq (i : Fin 16) (s : State) : readSubkey i s = s.arch.rk[i] := rfl

@[simp] theorem readSchedule_eq (s : State) : readSchedule s = s.arch.rk := rfl

@[simp] theorem schedReady_eq (s : State) : schedReady s = s.arch.schedValid := rfl

/-- Presenting and fetching undo one another. -/
@[simp] theorem fetch_present (e : PortEvent) (s : State) : fetch (present e s) = some (e, s) := rfl

/-- All that `fetch` can do: it takes the head of the port and nothing else. -/
theorem fetch_eq_some {s t : State} {e : PortEvent} (h : fetch s = some (e, t)) : s = present e t := by
  obtain ⟨a, port, r⟩ := s
  cases port with
  | nil => simp [fetch] at h
  | cons e' rest =>
    simp only [fetch, Option.some.injEq, Prod.mk.injEq] at h
    obtain ⟨rfl, rfl⟩ := h
    rfl

theorem fetch_eq_none {s : State} (h : fetch s = none) : s.port = [] := by
  obtain ⟨a, port, r⟩ := s
  cases port with
  | nil => rfl
  | cons e rest => simp [fetch] at h

/-- All that raising a fault can do: the one response is added, and the machine goes on. -/
theorem raise_next {f : Fault} {s t : State} (h : raise f s = .next t) : t = respond f.status 0#64 s := by
  simpa [raise] using h.symm

/-- With a valid schedule the result is answered. -/
theorem answerWithSchedule_of_valid {s : State} (h : s.arch.schedValid = true) (d : BitVec 64) :
    answerWithSchedule d s = .next (respond .ok d s) := by
  simp [answerWithSchedule, h]

/-- Without one, `NoSchedule` is raised, whatever the result would have been. -/
theorem answerWithSchedule_of_invalid {s : State} (h : s.arch.schedValid = false) (d : BitVec 64) :
    answerWithSchedule d s = .next (respond .noSchedule 0#64 s) := by
  simp [answerWithSchedule, h, raise, Fault.status]

/-- All that the shared reader can do: one response and no write. -/
theorem answerWithSchedule_next {d : BitVec 64} {s t : State} (h : answerWithSchedule d s = .next t) :
    (s.arch.schedValid = true ∧ t = respond .ok d s) ∨
      (s.arch.schedValid = false ∧ t = respond .noSchedule 0#64 s) := by
  cases hv : s.arch.schedValid with
  | true => rw [answerWithSchedule_of_valid hv] at h; left; simpa using h.symm
  | false => rw [answerWithSchedule_of_invalid hv] at h; right; simpa using h.symm

/-- Reset leaves the reset state of the core, and the port and the delivered responses as they are. -/
theorem takeReset_next {ab : List CommandWord} {s t : State} (h : takeReset ab s = .next t) :
    t.arch = Arch.reset ∧ t.port = s.port ∧ t.responses = s.responses := by
  cases h
  exact ⟨rfl, rfl, rfl⟩

end Sys2Proof.Machine
end

