-- ==== Sys2Proof/Laws/Permute.lean ====
section
/-! SUPPORT. The Permutation Engine's parts: what one step of the accumulator does to its bits, and what a table's own
well-formedness says of its entries. -/

namespace Sys2Proof.Machine

/-- A table has one entry per output bit (40_permutation_engine.md R84). -/
theorem entries_length {w n : Nat} (t : PermTable w n) : t.entries.length = n := by
  have h := t.ok
  simp only [permTableWf, Bool.and_eq_true, beq_iff_eq] at h
  exact h.1

/-- Every entry is a valid 1-based position of the input (40_permutation_engine.md R84). -/
theorem entries_range {w n : Nat} (t : PermTable w n) {p : Nat} (hp : p ∈ t.entries) : 1 ≤ p ∧ p ≤ w := by
  have h := t.ok
  simp only [permTableWf, Bool.and_eq_true, List.all_eq_true, decide_eq_true_eq] at h
  exact h.2 p hp

/-- No shift of R80 is out of range (40_permutation_engine.md R83). -/
theorem shift_in_range {w n : Nat} (t : PermTable w n) {p : Nat} (hp : p ∈ t.entries) : w - p < w := by
  have := entries_range t hp
  omega

/-- The bit brought in is the new bit 0. -/
theorem shiftIn_getLsbD_zero {n : Nat} (acc : BitVec n) (b : Bool) (hn : 0 < n) : (shiftIn acc b).getLsbD 0 = b := by
  simp [shiftIn, hn]

/-- Every other bit is the accumulator's next lower one. -/
theorem shiftIn_getLsbD_succ {n : Nat} (acc : BitVec n) (b : Bool) (j : Nat) (hj : j + 1 < n) :
    (shiftIn acc b).getLsbD (j + 1) = acc.getLsbD j := by
  simp [shiftIn, hj, -BitVec.getLsbD_eq_getElem]

end Sys2Proof.Machine
end

