-- ==== Sys2Proof/Tests/Slice0.lean ====
section
/-! SUPPORT. Tests. Expected results are the spec's own: 95_test_vectors.md and the worked examples of files 40 to 45.
Then, for each statement with hypotheses, a witness that meets them all together. -/

namespace Sys2Proof.Tests

open Sys2Proof Sys2Proof.Machine

/-- The key of the source's one vector. -/
def sourceKey : Key := 0x133457799BBCDFF1#64

/-- A state with the given schedule and flag, and nothing at the ports. -/
def stateWith (rk : Schedule) (valid : Bool) : State :=
  { arch := { rk := rk, schedValid := valid }, port := [], responses := [] }

/-- A state with all-zero registers. -/
def plain (valid : Bool) : State := stateWith (Vector.replicate 16 0#48) valid

/-! ## Well-formedness: a term each check refuses -/

theorem test_permTableWf_refuses_length : permTableWf 4 3 [1, 2] = false := by decide
theorem test_permTableWf_refuses_zero : permTableWf 4 2 [0, 2] = false := by decide
theorem test_permTableWf_refuses_beyond : permTableWf 4 2 [1, 5] = false := by decide
theorem test_sboxRowWf_refuses_repeat : sboxRowWf [14, 14, 13, 1, 2, 15, 11, 8, 3, 10, 6, 12, 5, 9, 0, 7] = false := by
  decide
theorem test_sboxTableWf_refuses_one_row :
    sboxTableWf [[14, 4, 13, 1, 2, 15, 11, 8, 3, 10, 6, 12, 5, 9, 0, 7]] = false := by decide
theorem test_fits64_refuses : fits64 (2 ^ 64) = false := by decide
theorem test_textOp_keygenE_refused : (TextOp.keygenE (2 ^ 64)).wf = false := by decide
theorem test_textOp_keygenD_refused : (TextOp.keygenD (2 ^ 64)).wf = false := by decide
theorem test_textOp_xform_refused : (TextOp.xform (2 ^ 64)).wf = false := by decide
theorem test_textOp_rdkey_refused : (TextOp.rdkey 16).wf = false := by decide
theorem test_textOp_xbatch_refused : (TextOp.xbatch [0, 2 ^ 64]).wf = false := by decide

/-! ## Decoding: words written from 30_encoding.md R62 (op dir rsv idx data), and 95_test_vectors.md section 7 -/

theorem test_decode_keygen :
    decode (0b00#2 ++ 0b1#1 ++ 0b0#1 ++ 0b0000#4 ++ sourceKey) = .ok (.keygen .decrypt sourceKey) := by decide
theorem test_decode_xform :
    decode (0b01#2 ++ 0b0#1 ++ 0b0#1 ++ 0b0000#4 ++ 0x0123456789ABCDEF#64) = .ok (.xform 0x0123456789ABCDEF#64) := by
  decide
theorem test_decode_rdkey : decode (0b10#2 ++ 0b0#1 ++ 0b0#1 ++ 0b1101#4 ++ 0#64) = .ok (.rdkey 13) := by decide
theorem test_decode_op11 : decode 0xFFFFFFFFFFFFFFFFFF#72 = .error .reservedOp := by decide
theorem test_decode_rsv : decode 0x10133457799BBCDFF1#72 = .error .reservedBit := by decide
theorem test_decode_idx : decode 0x410123456789ABCDEF#72 = .error .unusedIdx := by decide
theorem test_decode_dir : decode 0xA00000000000000000#72 = .error .unusedDir := by decide
theorem test_decode_data : decode 0x800000000000000001#72 = .error .unusedData := by decide
theorem test_encode_rdkey : encode (.rdkey 15) = 0x8F0000000000000000#72 := by decide
theorem test_decodeTableWord : decodeTableWord 72 0x20133457799BBCDFF1 = some (.keygen .decrypt sourceKey) := by decide
theorem test_text_of_keygen : instrText (.keygen .encrypt sourceKey) = "KEYGEN.E 0x133457799BBCDFF1" := by decide
theorem test_text_of_rdkey : instrText (.rdkey 15) = "RDKEY 15" := by decide
theorem test_text_of_response : responseText 0x085E813540F0AB405#66 = "0:85E813540F0AB405" := by decide
theorem test_assemble_xbatch : assemble (.xbatch [1, 2]) = some [.xform 1#64, .xform 2#64] := by decide
theorem test_assemble_rdsched : (assemble .rdsched).map List.length = some 16 := by decide

/-! ## The functions, on the spec's worked examples -/

/-- 40_permutation_engine.md section 3. -/
theorem test_permute_pc1 : permute pc1 sourceKey = 0xF0CCAAF556678F#56 := by decide +kernel
theorem test_permute_expansion_twice : permute expansion 0x80000000#32 = 0x400000000001#48 := by decide +kernel
theorem test_permute_final : permute fp 0x0A4CD99543423234#64 = 0x85E813540F0AB405#64 := by decide +kernel
/-- 41_sbox_network.md section 3. -/
theorem test_sboxNet : sboxNet 0x6117BA866527#48 = 0x5C82B597#32 := by decide +kernel
/-- 95_test_vectors.md section 3.1: chunk n holds n. -/
theorem test_sboxNet_chunks : sboxNet 0x0420C41461C8#48 = 0x017E2F76#32 := by decide +kernel
/-- 95_test_vectors.md section 4.3, the last derived key of another key. -/
theorem test_ks_encrypt : (ks 0xFEDCBA9876543210#64 .encrypt)[15] = 0x35C2FC478FCD#48 := by decide +kernel
/-- 42_key_schedule.md R120. -/
theorem test_ks_decrypt : (ks sourceKey .decrypt)[0] = 0xCB3D8B0E17F5#48 := by decide +kernel
/-- 43_feistel_round.md R140. -/
theorem test_feistel : feistel 0xF0AAF0AA#32 0x1B02EFFC7072#48 = 0x234AA9BB#32 := by decide +kernel
/-- The source's vector (95_test_vectors.md section 1.1), both ways. -/
theorem test_des_encrypt : des 0x0123456789ABCDEF#64 (ks sourceKey .encrypt) = 0x85E813540F0AB405#64 := by
  decide +kernel
theorem test_des_decrypt : des 0x85E813540F0AB405#64 (ks sourceKey .decrypt) = 0x0123456789ABCDEF#64 := by
  decide +kernel
/-- 20_memory.md R41. -/
theorem test_wordOfBytes :
    wordOfBytes #v[0x01#8, 0x23#8, 0x45#8, 0x67#8, 0x89#8, 0xAB#8, 0xCD#8, 0xEF#8] = 0x0123456789ABCDEF#64 := by decide

/-! ## One step -/

/-- A field of the next state, if there is one. -/
def after {α : Type} (f : State → α) : Host.Outcome State Fault Refusal → Option α
  | .next t => some (f t)
  | .fault _ => none
  | .refused _ => none

/-- 95_test_vectors.md section 7: `KEYGEN.E` as the first command after reset. -/
theorem test_keygen_from_reset :
    after (fun t => (t.arch.schedValid, t.arch.rk[15], t.responses))
      (step (State.reset.withFetchWord 72 0x00133457799BBCDFF1)) = some (true, 0xCB3D8B0E17F5#48, [0#66]) := by
  decide +kernel
theorem test_keygen_decrypt_reloads :
    after (fun t => t.arch.rk[0]) (step ((plain true).withFetchWord 72 0x20133457799BBCDFF1)) =
      some 0xCB3D8B0E17F5#48 := by decide +kernel
/-- 95_test_vectors.md section 7: `XFORM` in states B and A. -/
theorem test_xform_loaded :
    after State.responses (step ((stateWith (ks sourceKey .encrypt) true).withFetchWord 72 0x400123456789ABCDEF)) =
      some [0x085E813540F0AB405#66] := by decide +kernel
theorem test_xform_from_reset :
    after State.responses (step (State.reset.withFetchWord 72 0x400123456789ABCDEF)) =
      some [0x20000000000000000#66] := by decide
/-- 95_test_vectors.md section 7: `RDKEY 5` in states B and A. -/
theorem test_rdkey_loaded :
    after State.responses (step ((stateWith (ks sourceKey .encrypt) true).withFetchWord 72 0x850000000000000000)) =
      some [0x0000063A53E507B2F#66] := by decide +kernel
theorem test_rdkey_from_reset :
    after State.responses (step (State.reset.withFetchWord 72 0x850000000000000000)) =
      some [0x20000000000000000#66] := by decide
/-- 95_test_vectors.md section 7: an illegal word changes nothing and is answered `1:0`, before the schedule is looked
at. -/
theorem test_illegal_word :
    after (fun t => (t.arch, t.responses)) (step ((plain false).withFetchWord 72 0x410123456789ABCDEF)) =
      some ((plain false).arch, [0x10000000000000000#66]) := by decide
/-- 95_test_vectors.md section 8, P5: reset makes the schedule unusable and answers nothing. -/
theorem test_reset_event :
    after (fun t => (t.arch.schedValid, t.responses)) (step (present (.reset [0x400000000000000000#72]) (plain true))) =
      some (false, []) := by decide

/-! ## Witnesses: each meets all the hypotheses of the statement it is named after -/

theorem witness_EncodeOfDecode : decode 0x8F0000000000000000#72 = .ok (.rdkey 15) := by decide
theorem witness_StepRunsDecodedCommand : decode 0x20133457799BBCDFF1#72 = .ok (.keygen .decrypt sourceKey) := by decide
theorem witness_StepWaitsWhenNothingPresented : State.reset.port = [] := rfl
theorem witness_XformTransformsBlock : (plain true).arch.schedValid = true := rfl
theorem witness_RdkeyReadsSubkey : (plain true).arch.schedValid = true := rfl
theorem witness_RdkeyAnswerRightJustified : (plain true).arch.schedValid = true := rfl
theorem witness_LegalWordsAreTableRows_legal : legalWord 0x20133457799BBCDFF1#72 = true := by decide
theorem witness_LegalWordsAreTableRows_illegal : legalWord 0x800000000000000001#72 = false := by decide
theorem witness_LegalWordsAreTableRows_byte : legalWord (0x8F#8 ++ 0#64) = true := by decide
theorem witness_IllegalCommandWords : illegalPattern 0x2F133457799BBCDFF1#72 := by unfold illegalPattern; decide
/-- One word for each clause of the response rule: no command, `KEYGEN`, `XFORM`, `RDKEY`. -/
theorem witness_OneResponsePerCommand :
    decode 0xC00000000000000000#72 = .error .reservedOp ∧ decode 0x000000000000000000#72 = .ok (.keygen .encrypt 0#64) ∧
    decode 0x40FFFFFFFFFFFFFFFF#72 = .ok (.xform 0xFFFFFFFFFFFFFFFF#64) ∧
    decode 0x8F0000000000000000#72 = .ok (.rdkey 15) := by decide
theorem witness_CommandFrame_keygen : ∃ t, exec (.keygen .encrypt 0#64) (plain false) = .next t := ⟨_, rfl⟩
theorem witness_CommandFrame_xform : ∃ t, exec (.xform 0#64) (plain true) = .next t := ⟨_, rfl⟩
theorem witness_CommandFrame_rdkey : ∃ t, exec (.rdkey 15) (plain true) = .next t := ⟨_, rfl⟩
theorem witness_NoScheduleRaisedExactly_xform :
    (plain false).arch.schedValid = false ∧ xformRow.matchesWord 0x400000000000000000#72 = true := by decide
theorem witness_NoScheduleRaisedExactly_rdkey :
    (plain false).arch.schedValid = false ∧ rdkeyRow.matchesWord 0x8F0000000000000000#72 = true := by decide
theorem witness_IllegalCommandWinsOverNoSchedule :
    legalWord 0x410123456789ABCDEF#72 = false ∧ (plain false).arch.schedValid = false := by decide
theorem witness_FaultLeavesNoTrace :
    ∃ t, step (present (.command 0xC00000000000000000#72) (plain true)) = .next t ∧
      t.responses = (plain true).responses ++ [0x10000000000000000#66] ∧ statusOf 0x10000000000000000#66 ≠ 0b00#2 :=
  ⟨_, rfl, by decide, by decide⟩
theorem witness_CommandStreamIsFoldOfStep :
    (present (.command 0x400000000000000000#72) (plain true)).port =
      [0x400000000000000000#72].map PortEvent.command ++ [] := by decide
theorem witness_EventStreamIsFoldWithResets :
    (present (.reset []) (plain true)).port = [PortEvent.reset []] ++ [] := by decide
theorem witness_StateIsLastKeygenOrReset :
    (present (.reset []) (plain true)).port = [PortEvent.reset []] ++ [] := by decide
theorem witness_KeyGeneratedKeptByStep :
    KeyGenerated (stateWith (ks sourceKey .encrypt) true).arch ∧
      ∃ t, step (stateWith (ks sourceKey .encrypt) true) = .next t :=
  ⟨fun _ => ⟨sourceKey, .encrypt, rfl⟩, _, rfl⟩
theorem witness_ResponsesWellFormedKeptByStep :
    (∀ r ∈ ({ plain true with responses := [0x10000000000000000#66] } : State).responses, ResponseWellFormed r) ∧
      ∃ t, step { plain true with responses := [0x10000000000000000#66] } = .next t :=
  ⟨by simp [ResponseWellFormed, statusOf, dataOf], _, rfl⟩
/-- Two states that differ in `RK`, while `SCHED_VALID` = 0. -/
theorem witness_UnloadedScheduleUnobservable :
    SameButHiddenRk (plain false) (stateWith (Vector.replicate 16 1#48) false) ∧
      (plain false).arch.rk ≠ (stateWith (Vector.replicate 16 1#48) false).arch.rk :=
  ⟨⟨rfl, rfl, rfl, fun h => nomatch h⟩, by decide⟩
theorem witness_OnlyKeygenWritesSchedule :
    (present (.command 0x400000000000000000#72) (plain true)).port =
      [0x400000000000000000#72].map PortEvent.command ++ [] ∧
    ∀ w ∈ [0x400000000000000000#72], ∀ dir key, decode w ≠ .ok (.keygen dir key) := by
  refine ⟨by decide, fun w hw dir key h => ?_⟩
  have hw : w = 0x400000000000000000#72 := by simpa using hw
  have hd : decode 0x400000000000000000#72 = .ok (.xform 0#64) := by decide
  rw [hw, hd] at h
  cases h
theorem witness_SchedValidHistory :
    (present (.command 0x400000000000000000#72) State.reset).port = [.command 0x400000000000000000#72] ++ [] ∧
      (present (.command 0x400000000000000000#72) State.reset).arch = Arch.reset := ⟨rfl, rfl⟩
theorem witness_CommandsAreIdempotent : ∃ t, exec (.rdkey 0) (plain false) = .next t := ⟨_, rfl⟩
theorem witness_KeygenSeenByLaterXformOnly :
    ({ plain true with port := presentAll [.xform 1#64, .keygen .decrypt sourceKey, .xform 2#64] } : State).port =
        presentAll [.xform 1#64, .keygen .decrypt sourceKey, .xform 2#64] ++ [] ∧
      (plain true).arch.schedValid = true := ⟨rfl, rfl⟩
/-- The empty batch, and one of two blocks, under either value of the flag. -/
theorem witness_XbatchRealisesBatch :
    (plain false).port = presentAll (xbatch []) ++ [] ∧
      ({ plain true with port := presentAll (xbatch [1#64, 2#64]) } : State).port =
        presentAll (xbatch [1#64, 2#64]) ++ [] := ⟨rfl, rfl⟩
theorem witness_RdschedDeliversSchedule :
    ({ plain false with port := presentAll (.keygen .encrypt 0#64 :: rdsched) } : State).port =
      presentAll (.keygen .encrypt 0#64 :: rdsched) ++ [] := rfl
theorem witness_CoreDecryptsWhatItEncrypted :
    ({ plain false with port := presentAll [.keygen .encrypt 0#64, .xform 1#64, .keygen .decrypt 0#64,
        .xform (des 1#64 (ks 0#64 .encrypt))] } : State).port =
      presentAll [.keygen .encrypt 0#64, .xform 1#64, .keygen .decrypt 0#64, .xform (des 1#64 (ks 0#64 .encrypt))] ++
        [] := rfl
/-- The last output bit of PC-1, and its highest input position. -/
theorem witness_PermuteClosedForm : 55 < 56 ∧ 1 ≤ 64 ∧ 64 ≤ 64 := by decide
theorem witness_RotationInTwentyEightBits : (2 = 1 ∨ 2 = 2) ∧ 27 < 28 := by decide
theorem witness_ParityBitsIgnored :
    (sourceKey ^^^ 0x123456789ABCDEF0#64) &&& 0xFEFEFEFEFEFEFEFE#64 = 0#64 := by decide
theorem witness_WeakKeySchedules :
    ((keyHalves 0x1F1F1F1F0E0E0E0E#64 0).1 = 0#28 ∨ (keyHalves 0x1F1F1F1F0E0E0E0E#64 0).1 = BitVec.allOnes 28) ∧
      ((keyHalves 0x1F1F1F1F0E0E0E0E#64 0).2 = 0#28 ∨
        (keyHalves 0x1F1F1F1F0E0E0E0E#64 0).2 = BitVec.allOnes 28) := by decide +kernel
theorem witness_ReversedScheduleInvertsDes :
    ∀ i : Fin 16, (Vector.ofFn fun j : Fin 16 => BitVec.ofNat 48 (15 - j.val))[i] =
      (Vector.ofFn fun j : Fin 16 => BitVec.ofNat 48 j.val)[15 - i.val] := by decide
theorem witness_EqualSubkeysMakeXformSelfInverse :
    (plain true).arch.schedValid = true ∧ (∀ i : Fin 16, (plain true).arch.rk[i] = 0#48) ∧
      ({ plain true with port := presentAll [.xform 1#64, .xform (des 1#64 (plain true).arch.rk)] } : State).port =
        presentAll [.xform 1#64, .xform (des 1#64 (plain true).arch.rk)] ++ [] := ⟨rfl, by decide, rfl⟩

end Sys2Proof.Tests
end

section
/-! SUPPORT. One step said once, for every state: which architectural state an event leaves and which response words it
adds, as functions of the event and the architectural state before it. Every statement about the state's history
(10_state.md) follows from these equations without opening `step` or `exec` again. -/

namespace Sys2Proof.Machine

/-! ## One command -/

/-- The architectural state a command leaves (10_state.md R33): `KEYGEN` alone writes it. -/
def execArch : Instr → Arch → Arch
  | .keygen dir key, _ => { rk := ks key dir, schedValid := true }
  | .xform _, a => a
  | .rdkey _, a => a

/-- The response word of a command that reads the schedule (60_exceptions.md R183). -/
def scheduleResponse (a : Arch) (result : BitVec 64) : ResponseWord :=
  if a.schedValid then responseWord .ok result else responseWord .noSchedule 0#64

/-- The response word of a command (30_encoding.md R67). -/
def execResponse : Instr → Arch → ResponseWord
  | .keygen _ _, _ => responseWord .ok 0#64
  | .xform block, a => scheduleResponse a (des block a.rk)
  | .rdkey idx, a => scheduleResponse a (zext64 a.rk[idx])

/-- The shared reader writes no state and adds its response word. -/
theorem answerWithSchedule_eq (d : BitVec 64) (s : State) :
    answerWithSchedule d s = .next { s with responses := s.responses ++ [scheduleResponse s.arch d] } := by
  cases hv : s.arch.schedValid with
  | true => simp [answerWithSchedule_of_valid hv, respond, scheduleResponse, hv]
  | false => simp [answerWithSchedule_of_invalid hv, respond, scheduleResponse, hv]

/-- All that a command does: it always completes, leaves the port alone and adds exactly one response word. -/
theorem exec_eq (i : Instr) (s : State) :
    exec i s = .next { arch := execArch i s.arch, port := s.port,
                       responses := s.responses ++ [execResponse i s.arch] } := by
  cases i with
  | keygen dir key => rfl
  | xform block => exact answerWithSchedule_eq (des block s.arch.rk) s
  | rdkey idx => exact answerWithSchedule_eq (zext64 s.arch.rk[idx]) s

/-! ## The words of `KEYGEN` -/

/-- A word decodes to some `KEYGEN` or to none. -/
theorem decode_keygen_cases (w : CommandWord) :
    (∃ dir key, decode w = .ok (.keygen dir key)) ∨ ∀ dir key, decode w ≠ .ok (.keygen dir key) :=
  (Classical.em _).imp_right fun hk dir key hd => hk ⟨dir, key, hd⟩

theorem decode_encode_keygen (dir : Direction) (key : Key) :
    decode (encode (.keygen dir key)) = .ok (.keygen dir key) := by
  simp [decode, encode]

/-- No word but the encoded one decodes to a `KEYGEN` (30_encoding.md R65: unused fields are zero). -/
theorem eq_encode_of_decode_keygen {w : CommandWord} {dir : Direction} {key : Key}
    (h : decode w = .ok (.keygen dir key)) : w = encode (.keygen dir key) := by
  unfold decode at h
  split_ifs at h with hres hrsv hop hidx
  all_goals cases h
  rw [not_not] at hrsv hidx
  rw [encode, toBit_ofBit, ← hop, ← hrsv, ← hidx, packFields_of_fields]

/-! ## One event -/

@[simp] theorem writes_reset (abandoned : List CommandWord) : writes (.reset abandoned) = some Arch.reset := rfl

theorem writes_of_decode_keygen {w : CommandWord} {dir : Direction} {key : Key}
    (h : decode w = .ok (.keygen dir key)) :
    writes (.command w) = some { rk := ks key dir, schedValid := true } := by
  simp [writes, h]

@[simp] theorem writes_encode_keygen (dir : Direction) (key : Key) :
    writes (.command (encode (.keygen dir key))) = some { rk := ks key dir, schedValid := true } :=
  writes_of_decode_keygen (decode_encode_keygen dir key)

theorem writes_of_decode_ne_keygen {w : CommandWord} (h : ∀ dir key, decode w ≠ .ok (.keygen dir key)) :
    writes (.command w) = none := by
  cases hd : decode w with
  | error err => simp [writes, hd]
  | ok i =>
    cases i with
    | keygen dir key => exact absurd hd (h dir key)
    | xform block => simp [writes, hd]
    | rdkey idx => simp [writes, hd]

/-- Only a reset and the word of a `KEYGEN` write the architectural state, and this is what they leave. -/
theorem writes_eq_some {e : PortEvent} {a : Arch} (h : writes e = some a) :
    (∃ abandoned, e = .reset abandoned ∧ a = Arch.reset) ∨
    (∃ dir key, e = .command (encode (.keygen dir key)) ∧ a = { rk := ks key dir, schedValid := true }) := by
  cases e with
  | reset abandoned => exact .inl ⟨abandoned, rfl, by simpa using h.symm⟩
  | command w =>
    rcases decode_keygen_cases w with ⟨dir, key, hd⟩ | hne
    · obtain rfl := eq_encode_of_decode_keygen hd
      exact .inr ⟨dir, key, rfl, by simpa using h.symm⟩
    · rw [writes_of_decode_ne_keygen hne] at h
      cases h

/-- A legal command writes, as an event, what its execution leaves. -/
theorem getD_writes_of_decode {w : CommandWord} {i : Instr} (h : decode w = .ok i) (a : Arch) :
    (writes (.command w)).getD a = execArch i a := by
  cases i <;> simp [writes, h, execArch]

/-- The response words an event adds: none for a reset (70_reset_and_hazards.md R202), one for a command word. -/
def eventResponses (a : Arch) : PortEvent → List ResponseWord
  | .reset _ => []
  | .command w =>
    match decode w with
    | .ok i => [execResponse i a]
    | .error _ => [responseWord .illegalCommand 0#64]

/-- All that a step does on a presented event. -/
theorem step_present (e : PortEvent) (s : State) :
    step (present e s) = .next { arch := (writes e).getD s.arch, port := s.port,
                                 responses := s.responses ++ eventResponses s.arch e } := by
  cases e with
  | reset abandoned => simp [step, takeReset, eventResponses]
  | command w =>
    cases hd : decode w with
    | ok i => simp [step, hd, exec_eq, getD_writes_of_decode hd, eventResponses]
    | error err =>
      have hw : writes (.command w) = none := by simp [writes, hd]
      simp [step, hd, raise, Fault.status, respond, hw, eventResponses]

/-- A state with an event at the head of its port is that event presented to the rest. -/
theorem eq_present_of_port_eq_cons {s : State} {e : PortEvent} {rest : List PortEvent} (h : s.port = e :: rest) :
    s = present e { s with port := rest } :=
  State.ext_fields rfl rfl h rfl

/-- The step, by the port: it takes the first event. -/
theorem step_of_port_eq_cons {s : State} {e : PortEvent} {rest : List PortEvent} (h : s.port = e :: rest) :
    step s = .next { arch := (writes e).getD s.arch, port := rest,
                     responses := s.responses ++ eventResponses s.arch e } := by
  conv_lhs => rw [eq_present_of_port_eq_cons h]
  exact step_present e _

/-- The step, by the port: with nothing presented it waits. -/
theorem step_of_port_eq_nil {s : State} (h : s.port = []) : step s = .next s := by
  simp [step, fetch, h, idle]

/-! ## Runs -/

@[simp] theorem run_zero (s : State) : Host.Core.run core 0 s = .next s := rfl

theorem run_succ_of_step {s t : State} (h : step s = .next t) (n : Nat) :
    Host.Core.run core (n + 1) s = Host.Core.run core n t := by
  have hcore : core.step s = .next t := h
  simp only [Host.Core.run, hcore]

/-! ## Histories: `archAfter` -/

@[simp] theorem archAfter_nil (a : Arch) : archAfter a [] = a := rfl

theorem archAfter_append (a : Arch) (es fs : List PortEvent) :
    archAfter a (es ++ fs) = archAfter (archAfter a es) fs := by
  simp [archAfter, List.findSome?_append, Option.getD_or]

@[simp] theorem archAfter_singleton (a : Arch) (e : PortEvent) : archAfter a [e] = (writes e).getD a := by
  cases h : writes e <;> simp [archAfter, h]

theorem archAfter_cons (a : Arch) (e : PortEvent) (es : List PortEvent) :
    archAfter a (e :: es) = archAfter ((writes e).getD a) es := by
  rw [← archAfter_singleton, ← archAfter_append, List.singleton_append]

theorem archAfter_of_writes_eq_none {es : List PortEvent} (h : ∀ e ∈ es, writes e = none) (a : Arch) :
    archAfter a es = a := by
  have hnone : es.reverse.findSome? writes = none := List.findSome?_eq_none_iff.mpr (by simpa using h)
  rw [archAfter, hnone, Option.getD_none]

/-- Either no event of a history writes, or there is a last one that does. -/
theorem archAfter_cases (a : Arch) (es : List PortEvent) :
    archAfter a es = a ∨
    ∃ before e after, es = before ++ [e] ++ after ∧ writes e = some (archAfter a es) ∧
      ∀ x ∈ after, writes x = none := by
  cases hf : es.reverse.findSome? writes with
  | none => exact .inl (by rw [archAfter, hf, Option.getD_none])
  | some b =>
    obtain ⟨later, e, earlier, hsplit, he, hlater⟩ := List.findSome?_eq_some_iff.mp hf
    refine .inr ⟨earlier.reverse, e, later.reverse, ?_, ?_, by simpa using hlater⟩
    · simpa using congrArg List.reverse hsplit
    · rw [archAfter, hf, Option.getD_some, he]

/-- Over any history the run takes the architectural state to `archAfter` of it. -/
theorem run_of_port_eq_append {s : State} {es rest : List PortEvent} (h : s.port = es ++ rest) :
    ∃ t, Host.Core.run core es.length s = .next t ∧ t.port = rest ∧ t.arch = archAfter s.arch es := by
  induction es generalizing s with
  | nil => exact ⟨s, run_zero s, h, (archAfter_nil s.arch).symm⟩
  | cons e es ih =>
    rw [List.length_cons, run_succ_of_step (step_of_port_eq_cons h), archAfter_cons]
    exact ih rfl

/-! ## A valid schedule is key-generated (10_state.md R32) -/

theorem keyGenerated_of_schedValid_eq_false {a : Arch} (h : a.schedValid = false) : KeyGenerated a := by
  simp [KeyGenerated, h]

/-- Whatever event writes the state, it leaves a key-generated one. -/
theorem keyGenerated_of_writes {e : PortEvent} {a : Arch} (h : writes e = some a) : KeyGenerated a := by
  rcases writes_eq_some h with ⟨_, -, rfl⟩ | ⟨dir, key, -, rfl⟩
  · exact keyGenerated_of_schedValid_eq_false rfl
  · exact fun _ => ⟨key, dir, rfl⟩

theorem keyGenerated_getD_writes {a : Arch} (h : KeyGenerated a) (e : PortEvent) :
    KeyGenerated ((writes e).getD a) := by
  cases hw : writes e with
  | none => exact h
  | some b => exact keyGenerated_of_writes hw

/-! ## `RK` is hidden while `SCHED_VALID` = 0 (10_state.md R31) -/

/-- `SameButHiddenRk` on the architectural state alone. -/
def SameVisibleArch (a b : Arch) : Prop := a.schedValid = b.schedValid ∧ (a.schedValid = true → a.rk = b.rk)

theorem sameButHiddenRk_iff {s t : State} :
    SameButHiddenRk s t ↔ s.port = t.port ∧ s.responses = t.responses ∧ SameVisibleArch s.arch t.arch := Iff.rfl

/-- An unloaded `RK` is not read, and a loaded one is the same on both sides. -/
theorem SameVisibleArch.unloaded_or_eq {a b : Arch} (h : SameVisibleArch a b) :
    (a.schedValid = false ∧ b.schedValid = false) ∨ a = b := by
  obtain ⟨hvalid, hrk⟩ := h
  cases hv : a.schedValid with
  | false => exact .inl ⟨rfl, hvalid ▸ hv⟩
  | true =>
    obtain ⟨rkA, validA⟩ := a
    obtain ⟨rkB, validB⟩ := b
    obtain rfl := hvalid
    obtain rfl := hrk hv
    exact .inr rfl

/-- Every reader looks at `SCHED_VALID` first. -/
theorem execResponse_eq_of_unloaded {a b : Arch} (ha : a.schedValid = false) (hb : b.schedValid = false) (i : Instr) :
    execResponse i a = execResponse i b := by
  cases i <;> simp [execResponse, scheduleResponse, ha, hb]

theorem SameVisibleArch.eventResponses_eq {a b : Arch} (h : SameVisibleArch a b) (e : PortEvent) :
    eventResponses a e = eventResponses b e := by
  rcases h.unloaded_or_eq with ⟨ha, hb⟩ | rfl
  · simp only [eventResponses, execResponse_eq_of_unloaded ha hb]
  · rfl

theorem SameVisibleArch.getD_writes {a b : Arch} (h : SameVisibleArch a b) (e : PortEvent) :
    SameVisibleArch ((writes e).getD a) ((writes e).getD b) := by
  cases writes e with
  | none => exact h
  | some c => exact ⟨rfl, fun _ => rfl⟩

/-- Two states the host cannot tell apart stay so over one step. -/
theorem sameButHiddenRk_step {s t : State} (h : SameButHiddenRk s t) :
    ∃ s' t', step s = .next s' ∧ step t = .next t' ∧ SameButHiddenRk s' t' := by
  obtain ⟨hport, hresp, harch⟩ := sameButHiddenRk_iff.mp h
  cases hp : s.port with
  | nil => exact ⟨s, t, step_of_port_eq_nil hp, step_of_port_eq_nil (hport ▸ hp), h⟩
  | cons e rest =>
    refine ⟨_, _, step_of_port_eq_cons hp, step_of_port_eq_cons (hport ▸ hp), sameButHiddenRk_iff.mpr ?_⟩
    exact ⟨rfl, congrArg₂ (· ++ ·) hresp (harch.eventResponses_eq e), harch.getD_writes e⟩

/-! ## `SCHED_VALID` over a history (10_state.md R27) -/

/-- Only a reset clears `SCHED_VALID`. -/
theorem schedValid_archAfter_of_no_reset {a : Arch} {es : List PortEvent} (ha : a.schedValid = true)
    (hes : ∀ abandoned, PortEvent.reset abandoned ∉ es) : (archAfter a es).schedValid = true := by
  rcases archAfter_cases a es with hsame | ⟨before, e, after, rfl, he, -⟩
  · rw [hsame, ha]
  · rcases writes_eq_some he with ⟨abandoned, rfl, -⟩ | ⟨dir, key, -, hkey⟩
    · exact absurd (by simp) (hes abandoned)
    · rw [hkey]

/-- From reset, `SCHED_VALID` is 1 exactly after a history with a `KEYGEN` and no reset after it. -/
theorem schedValid_archAfter_reset_iff (es : List PortEvent) :
    (archAfter Arch.reset es).schedValid = true ↔
      ∃ before dir key after, es = before ++ [.command (encode (.keygen dir key))] ++ after ∧
        ∀ abandoned, PortEvent.reset abandoned ∉ after := by
  constructor
  · intro hvalid
    rcases archAfter_cases Arch.reset es with hsame | ⟨before, e, after, hes, he, hafter⟩
    · rw [hsame] at hvalid
      cases hvalid
    · rcases writes_eq_some he with ⟨_, -, hreset⟩ | ⟨dir, key, rfl, -⟩
      · rw [hreset] at hvalid
        cases hvalid
      · refine ⟨before, dir, key, after, hes, fun abandoned hmem => ?_⟩
        simpa using hafter _ hmem
  · rintro ⟨before, dir, key, after, rfl, hafter⟩
    rw [archAfter_append, archAfter_append, archAfter_singleton, writes_encode_keygen]
    exact schedValid_archAfter_of_no_reset rfl hafter

end Sys2Proof.Machine
end

section
/-! The statements about the state (10_state.md). -/

namespace Sys2Proof.Machine

/-- Settles O9: the port's empty branch of the step. -/
theorem stepWaitsWhenNothingPresented : Obligations.StepWaitsWhenNothingPresented :=
  fun _ h => step_of_port_eq_nil h

/-- Settles O15, by the equation of `exec`. -/
theorem commandFrame : Obligations.CommandFrame := by
  intro i s t h
  rw [exec_eq] at h
  cases h
  refine ⟨rfl, ⟨_, rfl⟩, ?_⟩
  cases i with
  | keygen dir key => exact ⟨rfl, rfl⟩
  | xform block => rfl
  | rdkey idx => rfl

/-- Settles O25: `SCHED_VALID` is 0 at reset. -/
theorem keyGeneratedAtReset : Obligations.KeyGeneratedAtReset :=
  keyGenerated_of_schedValid_eq_false reset_schedValid

/-- Settles O24: an event either writes a key-generated state or keeps the one before it. -/
theorem keyGeneratedKeptByStep : Obligations.KeyGeneratedKeptByStep := by
  intro s t hs h
  cases hp : s.port with
  | nil =>
    rw [step_of_port_eq_nil hp] at h
    cases h
    exact hs
  | cons e rest =>
    rw [step_of_port_eq_cons hp] at h
    cases h
    exact keyGenerated_getD_writes hs e

/-- Settles O23, by induction on the history. -/
theorem stateIsLastKeygenOrReset : Obligations.StateIsLastKeygenOrReset :=
  fun _ _ _ h => run_of_port_eq_append h

/-- Settles O27, by induction on the number of steps. -/
theorem unloadedScheduleUnobservable : Obligations.UnloadedScheduleUnobservable := by
  intro n
  induction n with
  | zero => exact fun s t h => ⟨s, t, run_zero s, run_zero t, h⟩
  | succ n ih =>
    intro s t h
    obtain ⟨s', t', hs, ht, h'⟩ := sameButHiddenRk_step h
    rw [run_succ_of_step hs, run_succ_of_step ht]
    exact ih s' t' h'

/-- Settles O28: a word that is no `KEYGEN` writes nothing, alone or in a run. -/
theorem onlyKeygenWritesSchedule : Obligations.OnlyKeygenWritesSchedule := by
  constructor
  · intro s w
    refine ⟨_, step_present (.command w) s, ?_⟩
    rcases decode_keygen_cases w with ⟨dir, key, hd⟩ | hne
    · exact .inl ⟨dir, key, hd, by rw [writes_of_decode_keygen hd, Option.getD_some]⟩
    · exact .inr ⟨hne, by rw [writes_of_decode_ne_keygen hne, Option.getD_none]⟩
  · intro s ws rest hport hne
    obtain ⟨t, hrun, -, harch⟩ := run_of_port_eq_append hport
    have hnone : ∀ e ∈ ws.map PortEvent.command, writes e = none := by
      simpa using fun w hw => writes_of_decode_ne_keygen (hne w hw)
    rw [archAfter_of_writes_eq_none hnone] at harch
    exact ⟨t, by simpa using hrun, congrArg Arch.rk harch⟩

/-- Settles O29: the last event of the history that writes decides. -/
theorem schedValidHistory : Obligations.SchedValidHistory := by
  intro s es rest hport hreset
  obtain ⟨t, hrun, -, harch⟩ := run_of_port_eq_append hport
  rw [hreset] at harch
  exact ⟨t, hrun, harch ▸ schedValid_archAfter_reset_iff es⟩

end Sys2Proof.Machine
end

section
/-! SUPPORT. The spec's own `Step` and its fold (Safety.lean) beside the machine's: an event does to the architectural
state and to the responses what `writes` and `eventResponses` say of it, and a run over a stream of events is `specRun`
of it. -/

namespace Sys2Proof.Machine

/-! ## The spec's `Step` -/

/-- The one-bit fields, as the pseudocode of 30_encoding.md R69 tests them. -/
theorem dirField_eq_zero_iff (w : CommandWord) : dirField w = 0#1 ↔ w[69] = false := by
  simp [dirField, BitVec.eq_of_getLsbD_eq_iff]

theorem rsvField_eq_zero_iff (w : CommandWord) : rsvField w = 0#1 ↔ w[68] = false := by
  simp [rsvField, BitVec.eq_of_getLsbD_eq_iff]

theorem ofBit_dirField (w : CommandWord) : Direction.ofBit (dirField w) = if w[69] then .decrypt else .encrypt := by
  rw [Direction.ofBit, if_congr (dirField_eq_zero_iff w) rfl rfl]
  cases w[69] <;> rfl

/-- What a reader of the schedule is answered, as the word it is delivered in (30_encoding.md R67). -/
theorem scheduleResponse_of_valid {a : Arch} (h : a.schedValid = true) (result : BitVec 64) :
    scheduleResponse a result = 0b00#2 ++ result := by
  simp [scheduleResponse, h, responseWord, Status.code]

theorem scheduleResponse_of_invalid {a : Arch} (h : a.schedValid = false) (result : BitVec 64) :
    scheduleResponse a result = 0b10#2 ++ 0#64 := by
  simp [scheduleResponse, h, responseWord, Status.code]

/-- The pseudocode's test of `SCHED_VALID` is the shared reader's. -/
theorem ite_specNoSchedule (a : Arch) (result : BitVec 64) :
    (if a.schedValid = false then specNoSchedule a else (a, 0b00#2 ++ result)) = (a, scheduleResponse a result) := by
  cases hv : a.schedValid with
  | false => rw [scheduleResponse_of_invalid hv]; rfl
  | true => rw [scheduleResponse_of_valid hv]; rfl

/-- A word the decoder refuses is illegal for the spec's `Step` (60_exceptions.md R182): each check of `decode` is one
of the pseudocode's. -/
theorem specStep_of_decode_error {w : CommandWord} {err : DecodeError} (h : decode w = .error err) (a : Arch) :
    specStep a w = specIllegal a := by
  unfold decode at h
  split_ifs at h
  all_goals cases h
  all_goals simp_all [specStep, opField, idxField, dataField, dirField_eq_zero_iff, rsvField_eq_zero_iff]

/-- On a word that decodes, the spec's `Step` does what the execution of the command does. -/
theorem specStep_of_decode {w : CommandWord} {i : Instr} (h : decode w = .ok i) (a : Arch) :
    specStep a w = (execArch i a, execResponse i a) := by
  unfold decode at h
  split_ifs at h with hop hrsv hkeygen hidx hxform hdir hidx hdir hdata
  all_goals
    cases h
    simp only [opField, idxField, dataField, ne_eq, not_not, dirField_eq_zero_iff, rsvField_eq_zero_iff] at *
  · simp [specStep, hrsv, hkeygen, hidx, execArch, execResponse, responseWord, Status.code, ofBit_dirField]
  · simp [specStep, hrsv, hxform, hdir, hidx, execArch, execResponse, ite_specNoSchedule]
  · simp [specStep, hop, hrsv, hkeygen, hxform, hdir, hdata, execArch, execResponse, ite_specNoSchedule]

theorem specStep_fst (a : Arch) (w : CommandWord) : (specStep a w).1 = (writes (.command w)).getD a := by
  cases hd : decode w with
  | ok i => rw [specStep_of_decode hd, getD_writes_of_decode hd]
  | error err => simp [specStep_of_decode_error hd, specIllegal, writes, hd]

theorem eventResponses_command (a : Arch) (w : CommandWord) :
    eventResponses a (.command w) = [(specStep a w).2] := by
  cases hd : decode w with
  | ok i => simp [specStep_of_decode hd, eventResponses, hd]
  | error err => simp [specStep_of_decode_error hd, specIllegal, eventResponses, hd, responseWord, Status.code]

/-! ## The fold over a stream -/

@[simp] theorem specRun_nil (a : Arch) : specRun [] a = (a, []) := rfl

/-- One event of the fold, of either kind. -/
theorem specRun_cons (e : PortEvent) (es : List PortEvent) (a : Arch) :
    specRun (e :: es) a =
      ((specRun es ((writes e).getD a)).1, eventResponses a e ++ (specRun es ((writes e).getD a)).2) := by
  cases e with
  | reset abandoned => rfl
  | command w => rw [eventResponses_command, ← specStep_fst]; rfl

/-- A run over the events at the head of the port is the spec's fold over them, and leaves the rest of the port. -/
theorem run_eq_specRun {s : State} {es rest : List PortEvent} (h : s.port = es ++ rest) :
    Host.Core.run core es.length s =
      .next { arch := (specRun es s.arch).1, port := rest, responses := s.responses ++ (specRun es s.arch).2 } := by
  induction es generalizing s with
  | nil =>
    obtain ⟨a, port, responses⟩ := s
    obtain rfl : port = rest := h
    simp
  | cons e es ih =>
    rw [List.length_cons, run_succ_of_step (step_of_port_eq_cons h), ih rfl, specRun_cons]
    simp only [List.append_assoc]

/-- One response per command (20_memory.md R48). -/
theorem length_specRun_commands (ws : List CommandWord) (a : Arch) :
    (specRun (ws.map .command) a).2.length = ws.length := by
  induction ws generalizing a with
  | nil => rfl
  | cons w ws ih => simp [specRun, ih]

/-! ## Streams of encoded commands -/

theorem decode_encode (i : Instr) : decode (encode i) = .ok i := by
  cases i with
  | keygen dir key => exact decode_encode_keygen dir key
  | xform block => simp [decode, encode]
  | rdkey idx => simp [decode, encode]

@[simp] theorem presentAll_nil : presentAll [] = [] := rfl

@[simp] theorem presentAll_cons (i : Instr) (is : List Instr) :
    presentAll (i :: is) = .command (encode i) :: presentAll is := rfl

/-- One encoded command of the fold. -/
theorem specRun_encode_cons (i : Instr) (es : List PortEvent) (a : Arch) :
    specRun (.command (encode i) :: es) a =
      ((specRun es (execArch i a)).1, execResponse i a :: (specRun es (execArch i a)).2) := by
  rw [specRun, specStep_of_decode (decode_encode i)]

/-! ## One command twice (20_memory.md R47) -/

theorem execArch_idem (i : Instr) (a : Arch) : execArch i (execArch i a) = execArch i a := by
  cases i <;> rfl

/-- Only `KEYGEN` writes the architectural state (10_state.md R23). -/
theorem execArch_of_ne_keygen {i : Instr} (h : ∀ dir key, i ≠ .keygen dir key) (a : Arch) : execArch i a = a := by
  cases i with
  | keygen dir key => exact absurd rfl (h dir key)
  | xform block => rfl
  | rdkey idx => rfl

end Sys2Proof.Machine
end

section
/-! SUPPORT. The host's bytes (20_memory.md R41): a word is its eight bytes shifted in one after another, each of which
moves the earlier ones up by eight places. -/

namespace Sys2Proof.Machine

/-- One step of `wordOfBytes`. -/
def shiftInByte (acc : BitVec 64) (x : Byte) : BitVec 64 := (acc <<< 8) ||| x.setWidth 64

theorem toList_eq_bytes (b : Vector Byte 8) : b.toList = [b[0], b[1], b[2], b[3], b[4], b[5], b[6], b[7]] := by
  obtain ⟨⟨bytes⟩, hlen⟩ := b
  match bytes, hlen with
  | [b0, b1, b2, b3, b4, b5, b6, b7], _ => rfl

theorem wordOfBytes_eq_foldl (b : Vector Byte 8) :
    wordOfBytes b = [b[0], b[1], b[2], b[3], b[4], b[5], b[6], b[7]].foldl shiftInByte 0#64 := by
  rw [← toList_eq_bytes]
  rfl

/-- Bits 7 to 0 are the new byte's, and every other bit is the accumulator's eight places lower. -/
theorem getLsbD_shiftInByte (acc : BitVec 64) (x : Byte) {i : Nat} (hi : i < 64) :
    (shiftInByte acc x).getLsbD i = if i < 8 then x.getLsbD i else acc.getLsbD (i - 8) := by
  split_ifs with hlow
  · simp [shiftInByte, hi, hlow, -BitVec.getLsbD_eq_getElem]
  · have hx : x.getLsbD i = false := BitVec.getLsbD_of_ge x i (Nat.le_of_not_lt hlow)
    simp [shiftInByte, hi, hlow, hx, -BitVec.getLsbD_eq_getElem]

theorem shiftInByte_zero (x : Byte) : shiftInByte 0#64 x = x.setWidth 64 := by
  simp [shiftInByte]

/-- Shifting a byte in appends it, for as many bits as the word holds. -/
theorem shiftInByte_setWidth {n : Nat} (acc : BitVec n) (x : Byte) :
    shiftInByte (acc.setWidth 64) x = (acc ++ x).setWidth 64 := by
  apply BitVec.eq_of_getLsbD_eq
  intro i hi
  rw [getLsbD_shiftInByte _ _ hi, BitVec.getLsbD_setWidth, BitVec.getLsbD_setWidth, BitVec.getLsbD_append]
  simp [hi, show i - 8 < 64 by omega]

/-- The lowest byte is the new one. -/
theorem extract_shiftInByte_low (acc : BitVec 64) (x : Byte) : (shiftInByte acc x).extractLsb' 0 8 = x := by
  apply BitVec.eq_of_getLsbD_eq
  intro i hi
  rw [BitVec.getLsbD_extractLsb', getLsbD_shiftInByte _ _ (by omega)]
  simp [hi]

/-- Every higher byte is the accumulator's next lower one. -/
theorem extract_shiftInByte_high (acc : BitVec 64) (x : Byte) {k : Nat} (hk : k + 16 ≤ 64) :
    (shiftInByte acc x).extractLsb' (k + 8) 8 = acc.extractLsb' k 8 := by
  apply BitVec.eq_of_getLsbD_eq
  intro i hi
  rw [BitVec.getLsbD_extractLsb', BitVec.getLsbD_extractLsb', getLsbD_shiftInByte _ _ (by omega),
    if_neg (by omega), show k + 8 + i - 8 = k + i by omega]

/-- The word is the concatenation of the bytes, `b0` on top. -/
theorem wordOfBytes_eq_append (b : Vector Byte 8) :
    wordOfBytes b = b[0] ++ b[1] ++ b[2] ++ b[3] ++ b[4] ++ b[5] ++ b[6] ++ b[7] := by
  simp only [wordOfBytes_eq_foldl, List.foldl_cons, List.foldl_nil, shiftInByte_zero, shiftInByte_setWidth]
  exact BitVec.setWidth_eq _

/-- Byte `bj` is `w[63-8j : 56-8j]`: `7 - j` bytes are shifted in after it. -/
theorem extract_wordOfBytes (b : Vector Byte 8) (j : Fin 8) :
    (wordOfBytes b).extractLsb' (56 - 8 * j.val) 8 = b[j] := by
  rw [wordOfBytes_eq_foldl]
  fin_cases j <;> simp [extract_shiftInByte_high, extract_shiftInByte_low]

/-- The word's top bit is the top bit of `b0`. -/
theorem getLsbD_wordOfBytes_top (b : Vector Byte 8) : (wordOfBytes b).getLsbD 63 = b[0].msb := by
  have hb0 : (wordOfBytes b).extractLsb' 56 8 = b[0] := extract_wordOfBytes b 0
  rw [← hb0, BitVec.msb_eq_getLsbD_last, BitVec.getLsbD_extractLsb']
  rfl

/-- The bytes come back from the word (20_memory.md R42). -/
theorem bytesOfWord_wordOfBytes (b : Vector Byte 8) : bytesOfWord (wordOfBytes b) = b := by
  apply Vector.ext
  intro j hj
  rw [bytesOfWord, Vector.getElem_ofFn]
  exact extract_wordOfBytes b ⟨j, hj⟩

end Sys2Proof.Machine
end

section
/-! The statements about commands one after another and the host's bytes (20_memory.md). -/

namespace Sys2Proof.Machine

/-- Settles O21: the run is the spec's fold, by induction on the stream. -/
theorem commandStreamIsFoldOfStep : Obligations.CommandStreamIsFoldOfStep := by
  intro s ws rest hport
  refine ⟨?_, length_specRun_commands ws s.arch⟩
  simpa using run_eq_specRun hport

/-- Settles O30: the second execution starts from what the first left, and a reader leaves what it found. -/
theorem commandsAreIdempotent : Obligations.CommandsAreIdempotent := by
  intro i s t h
  rw [exec_eq] at h
  cases h
  refine ⟨_, exec_eq i _, execArch_idem i s.arch, fun hread => ⟨_, rfl, ?_⟩⟩
  simp only [execArch_of_ne_keygen hread]

/-- Settles O31: the run is the spec's fold over the three commands, and `KEYGEN` writes between the two reads. -/
theorem keygenSeenByLaterXformOnly : Obligations.KeygenSeenByLaterXformOnly := by
  intro s b1 b2 dir key rest hvalid hport
  refine (run_eq_specRun hport).trans ?_
  simp only [presentAll_cons, presentAll_nil, specRun_encode_cons, specRun_nil]
  simp [execArch, execResponse, scheduleResponse_of_valid, hvalid, responseWord, Status.code]

/-- Settles O35: every part follows from the place of each byte in the word. -/
theorem hostBytesMostSignificantFirst : Obligations.HostBytesMostSignificantFirst := fun b =>
  ⟨wordOfBytes_eq_append b, extract_wordOfBytes b, getLsbD_wordOfBytes_top b, getLsbD_wordOfBytes_top b,
    bytesOfWord_wordOfBytes b⟩

end Sys2Proof.Machine
end

section
/-! SUPPORT. The encoding (30_encoding.md): the decoder and the encoder are inverse to one another, a row of the opcode
table is a condition on the fields of a word, and the words that match a row are the ones that decode. -/

namespace Sys2Proof.Machine

open Sys2Proof.Laws

/-! ## Decode and encode -/

/-- A word is known by its fields. -/
theorem packFields_eq_of_fields {w : CommandWord} {op : BitVec 2} {dir rsv : BitVec 1} {idx : BitVec 4}
    {data : BitVec 64} (hop : opField w = op) (hdir : dirField w = dir) (hrsv : rsvField w = rsv)
    (hidx : idxField w = idx) (hdata : dataField w = data) : packFields op dir rsv idx data = w := by
  rw [← hop, ← hdir, ← hrsv, ← hidx, ← hdata, packFields_of_fields]

/-- The fourth value of `op` is `RDKEY`'s. -/
theorem opField_eq_two {w : CommandWord} (h3 : opField w ≠ 3#2) (h0 : opField w ≠ 0#2) (h1 : opField w ≠ 1#2) :
    opField w = 2#2 := by
  bv_omega

/-- The decoder ignores no bit: each field of a word that decodes is an operand or has the value the encoder writes. -/
theorem encode_of_decode {w : CommandWord} {i : Instr} (h : decode w = .ok i) : encode i = w := by
  unfold decode at h
  split_ifs at h with hres hrsv hkeygen hidx hxform hdir hidx hdir hdata
  all_goals
    cases h
    rw [not_not] at *
  · exact packFields_eq_of_fields hkeygen (toBit_ofBit _).symm hrsv hidx rfl
  · exact packFields_eq_of_fields hxform hdir hrsv hidx rfl
  · exact packFields_eq_of_fields (opField_eq_two hres hkeygen hxform) hdir hrsv rfl hdata

theorem decode_eq_ok_iff {w : CommandWord} {i : Instr} : decode w = .ok i ↔ w = encode i := by
  constructor
  · exact fun h => (encode_of_decode h).symm
  · rintro rfl
    exact decode_encode i

/-! ## The rows of the opcode table (30_encoding.md R66) -/

section
variable (op : BitVec 2) (dir rsv : BitVec 1) (idx : BitVec 4) (data : BitVec 64)

theorem keygenRow_matchesWord_packFields :
    keygenRow.matchesWord (packFields op dir rsv idx data) = true ↔ op = 0#2 ∧ rsv = 0#1 ∧ idx = 0#4 := by
  rw [keygenRow_eq, packFields_eq_append, matches_append, BitVec.and_zero, eq_self, and_true]
  revert op dir rsv idx
  decide

theorem xformRow_matchesWord_packFields :
    xformRow.matchesWord (packFields op dir rsv idx data) = true ↔ op = 1#2 ∧ dir = 0#1 ∧ rsv = 0#1 ∧ idx = 0#4 := by
  rw [xformRow_eq, packFields_eq_append, matches_append, BitVec.and_zero, eq_self, and_true]
  revert op dir rsv idx
  decide

theorem rdkeyRow_matchesWord_packFields :
    rdkeyRow.matchesWord (packFields op dir rsv idx data) = true ↔ op = 2#2 ∧ dir = 0#1 ∧ rsv = 0#1 ∧ data = 0#64 := by
  have hbyte : op ++ dir ++ rsv ++ idx &&& 0xF0#8 = 0x80#8 ↔ op = 2#2 ∧ dir = 0#1 ∧ rsv = 0#1 := by
    revert op dir rsv idx
    decide
  rw [rdkeyRow_eq, packFields_eq_append, matches_append, hbyte, show 0xFFFFFFFFFFFFFFFF#64 = BitVec.allOnes 64 from rfl,
    BitVec.and_allOnes]
  simp only [and_assoc]

end

theorem row_mem_opcodeRows (i : Instr) : i.row ∈ opcodeRows := by
  cases i <;> simp [opcodeRows, Instr.row]

theorem row_matchesWord_encode (i : Instr) : i.row.matchesWord (encode i) = true := by
  cases i with
  | keygen dir key => exact (TableRow.keygen dir key).1
  | xform block => exact (TableRow.xform block).1
  | rdkey idx => exact (TableRow.rdkey idx).1

/-- A word that matches a row decodes to a command of that row: the row fixes every field the decoder checks. -/
theorem exists_decode_of_matchesWord {r : OpcodeRow} (hr : r ∈ opcodeRows) {w : CommandWord}
    (h : r.matchesWord w = true) : ∃ i, decode w = .ok i ∧ i.row = r := by
  rw [← packFields_of_fields w] at h
  simp only [opcodeRows, List.mem_cons, List.not_mem_nil, or_false] at hr
  rcases hr with rfl | rfl | rfl
  · obtain ⟨hop, hrsv, hidx⟩ := (keygenRow_matchesWord_packFields ..).mp h
    exact ⟨.keygen (Direction.ofBit (dirField w)) (dataField w), by simp [decode, hop, hrsv, hidx], rfl⟩
  · obtain ⟨hop, hdir, hrsv, hidx⟩ := (xformRow_matchesWord_packFields ..).mp h
    exact ⟨.xform (dataField w), by simp [decode, hop, hdir, hrsv, hidx], rfl⟩
  · obtain ⟨hop, hdir, hrsv, hdata⟩ := (rdkeyRow_matchesWord_packFields ..).mp h
    exact ⟨.rdkey (idxField w).toFin, by simp [decode, hop, hdir, hrsv, hdata], rfl⟩

/-- The words that match a row are the ones that decode. -/
theorem legalWord_iff_decode (w : CommandWord) : legalWord w = true ↔ ∃ i, decode w = .ok i := by
  rw [legalWord, List.any_eq_true]
  constructor
  · rintro ⟨r, hr, hw⟩
    obtain ⟨i, hi, -⟩ := exists_decode_of_matchesWord hr hw
    exact ⟨i, hi⟩
  · rintro ⟨i, hi⟩
    obtain rfl := decode_eq_ok_iff.mp hi
    exact ⟨i.row, row_mem_opcodeRows i, row_matchesWord_encode i⟩

theorem legalWord_eq_false_iff_decode (w : CommandWord) : legalWord w = false ↔ ∃ err, decode w = .error err := by
  rw [← Bool.not_eq_true, legalWord_iff_decode]
  cases decode w <;> simp

/-- A word is legal by its command byte, and for `RDKEY` by its data as well. -/
theorem legalWord_append (b : BitVec 8) (data : BitVec 64) :
    legalWord (b ++ data) = true ↔
      b &&& 0xDF#8 = 0x00#8 ∨ b &&& 0xFF#8 = 0x40#8 ∨ (b &&& 0xF0#8 = 0x80#8 ∧ data = 0#64) := by
  simp only [legalWord, opcodeRows, List.any_cons, List.any_nil, Bool.or_eq_true, Bool.false_eq_true, or_false,
    keygenRow_eq, xformRow_eq, rdkeyRow_eq, matches_append, BitVec.and_zero, and_true]
  rw [show 0xFFFFFFFFFFFFFFFF#64 = BitVec.allOnes 64 from rfl, BitVec.and_allOnes]

/-- The command bytes that can begin a legal word: zero data is as good as any. -/
theorem exists_legalWord_append_iff (b : BitVec 8) :
    (∃ data : BitVec 64, legalWord (b ++ data) = true) ↔
      b &&& 0xDF#8 = 0x00#8 ∨ b &&& 0xFF#8 = 0x40#8 ∨ b &&& 0xF0#8 = 0x80#8 := by
  simp only [legalWord_append, exists_or, exists_and_left, exists_const, exists_eq, and_true]

/-! ## A step on a command word -/

theorem step_command_of_decode {w : CommandWord} {i : Instr} (h : decode w = .ok i) (s : State) :
    step (present (.command w) s) = exec i s := by
  simp only [step, fetch_present, h]

theorem step_command_of_decode_error {w : CommandWord} {err : DecodeError} (h : decode w = .error err) (s : State) :
    step (present (.command w) s) = raise .illegalCommand s := by
  simp only [step, fetch_present, h]

/-- A step on any word is the spec's `Step` (30_encoding.md R69). -/
theorem step_command (w : CommandWord) (s : State) :
    step (present (.command w) s) =
      .next { arch := (specStep s.arch w).1, port := s.port, responses := s.responses ++ [(specStep s.arch w).2] } := by
  rw [step_present, specStep_fst, eventResponses_command]

/-- Every state has a next one. -/
theorem exists_step_eq_next (s : State) : ∃ t, step s = .next t := by
  cases hp : s.port with
  | nil => exact ⟨s, step_of_port_eq_nil hp⟩
  | cons e rest => exact ⟨_, step_of_port_eq_cons hp⟩

end Sys2Proof.Machine
end

section
/-! SUPPORT. The response words (30_encoding.md R67 and R68), the bits of a permuted value, and the answers to a stream
of commands that only read. -/

namespace Sys2Proof.Machine

/-! ## Status and data of a response word -/

@[simp] theorem statusOf_responseWord (st : Status) (data : BitVec 64) : statusOf (responseWord st data) = st.code :=
  statusOf_append st.code data

@[simp] theorem dataOf_responseWord (st : Status) (data : BitVec 64) : dataOf (responseWord st data) = data :=
  dataOf_append st.code data

theorem responseWellFormed_ok (data : BitVec 64) : ResponseWellFormed (responseWord .ok data) := by
  simp [ResponseWellFormed, Status.code]

/-- No status has the code 11, so a response without data is well formed whatever its status. -/
theorem responseWellFormed_zero (st : Status) : ResponseWellFormed (responseWord st 0#64) := by
  cases st <;> simp [ResponseWellFormed, Status.code]

theorem responseWellFormed_scheduleResponse (a : Arch) (result : BitVec 64) :
    ResponseWellFormed (scheduleResponse a result) := by
  rw [scheduleResponse]
  split_ifs
  · exact responseWellFormed_ok result
  · exact responseWellFormed_zero .noSchedule

theorem responseWellFormed_execResponse (i : Instr) (a : Arch) : ResponseWellFormed (execResponse i a) := by
  cases i with
  | keygen dir key => exact responseWellFormed_ok 0#64
  | xform block => exact responseWellFormed_scheduleResponse a _
  | rdkey idx => exact responseWellFormed_scheduleResponse a _

theorem responseWellFormed_specStep (a : Arch) (w : CommandWord) : ResponseWellFormed (specStep a w).2 := by
  cases hd : decode w with
  | ok i => rw [specStep_of_decode hd]; exact responseWellFormed_execResponse i a
  | error err => rw [specStep_of_decode_error hd]; exact responseWellFormed_zero .illegalCommand

theorem responseWellFormed_eventResponses (a : Arch) (e : PortEvent) :
    ∀ r ∈ eventResponses a e, ResponseWellFormed r := by
  cases e with
  | reset abandoned => simp [eventResponses]
  | command w => simp [eventResponses_command, responseWellFormed_specStep]

/-- Status and data of the answer to a command that reads the schedule, by `SCHED_VALID` (60_exceptions.md R183). -/
theorem status_data_scheduleResponse (a : Arch) (result : BitVec 64) :
    if a.schedValid then statusOf (scheduleResponse a result) = 0b00#2 ∧ dataOf (scheduleResponse a result) = result
    else statusOf (scheduleResponse a result) = 0b10#2 := by
  cases h : a.schedValid <;> simp [scheduleResponse, h, Status.code]

/-- A bit of the answer to `RDKEY` is the subkey's bit of the same number (30_encoding.md R68). -/
theorem getLsbD_subkeyResponse (k : Subkey) {i : Nat} (hi : i < 64) :
    (0b00#2 ++ zext64 k : ResponseWord).getLsbD i = k.getLsbD i := by
  refine BitVec.getLsbD_append.trans ?_
  simp [hi, -BitVec.getLsbD_eq_getElem]

theorem extract_subkeyResponse_low (k : Subkey) : (0b00#2 ++ zext64 k : ResponseWord).extractLsb' 0 48 = k := by
  apply BitVec.eq_of_getLsbD_eq
  intro i hi
  rw [BitVec.getLsbD_extractLsb', getLsbD_subkeyResponse k (by omega)]
  simp [hi]

theorem extract_subkeyResponse_high (k : Subkey) :
    (0b00#2 ++ zext64 k : ResponseWord).extractLsb' 48 16 = 0#16 := by
  apply BitVec.eq_of_getLsbD_eq
  intro i hi
  rw [BitVec.getLsbD_extractLsb', getLsbD_subkeyResponse k (by omega), BitVec.getLsbD_of_ge k _ (by omega)]
  simp

/-! ## The bits of a permuted value (40_permutation_engine.md R81) -/

/-- The accumulator holds the bits shifted in, the last one at bit 0. -/
theorem getLsbD_foldl_shiftIn {n : Nat} (bits : List Bool) {i : Nat} (hi : i < n) :
    (bits.foldl shiftIn 0#n).getLsbD i = bits.reverse.getD i false := by
  induction bits using List.reverseRecOn generalizing i with
  | nil => simp
  | append_singleton bits b ih =>
    rw [List.foldl_concat, List.reverse_concat]
    cases i with
    | zero => exact shiftIn_getLsbD_zero _ b hi
    | succ i => rw [shiftIn_getLsbD_succ _ b i hi, ih (by omega), List.getD_cons_succ]

/-- Output bit `n-1-i` is the input bit at the table's `i`-th position. -/
theorem getLsbD_permute {w n : Nat} (t : PermTable w n) (x : BitVec w) {i : Nat} (hi : i < n) :
    (permute t x).getLsbD (n - 1 - i) = pos x (t.entries.getD i 0) := by
  have hlen := entries_length t
  rw [permute, ← List.foldl_map (f := pos x) (g := shiftIn), getLsbD_foldl_shiftIn _ (by omega)]
  simp [List.getD_eq_getElem?_getD, hlen, show n - 1 - i < n by omega,
    show n - 1 - (n - 1 - i) = i by omega, hi]

/-- The top output bit is the one the table's first entry chooses. -/
theorem msb_permute {w n : Nat} (t : PermTable w n) (x : BitVec w) (hn : 0 < n) :
    (permute t x).msb = pos x (t.entries.getD 0 0) := by
  rw [BitVec.msb_eq_getLsbD_last]
  exact getLsbD_permute t x hn

/-! ## Streams of reads -/

/-- Commands that only read leave the state and are each answered from it. -/
theorem specRun_presentAll_of_ne_keygen {is : List Instr} (h : ∀ i ∈ is, ∀ dir key, i ≠ .keygen dir key) (a : Arch) :
    specRun (presentAll is) a = (a, is.map fun i => execResponse i a) := by
  induction is with
  | nil => rfl
  | cons i is ih =>
    obtain ⟨hi, his⟩ := List.forall_mem_cons.mp h
    rw [presentAll_cons, specRun_encode_cons, execArch_of_ne_keygen hi, ih his, List.map_cons]

/-- The sixteen answers to `RDSCHED` under a valid schedule (30_encoding.md R71). -/
theorem map_execResponse_rdsched {a : Arch} (h : a.schedValid = true) :
    (rdsched.map fun i => execResponse i a) = a.rk.toList.map fun k => 0b00#2 ++ zext64 k := by
  apply List.ext_getElem
  · simp [rdsched]
  · intro n hn hn'
    simp [rdsched, execResponse, scheduleResponse_of_valid h]

end Sys2Proof.Machine
end

section
/-! The statements about the encoding and one step (30_encoding.md). -/

namespace Sys2Proof.Machine

/-- Settles O1, by the command. -/
theorem decodeOfEncode : Obligations.DecodeOfEncode :=
  decode_encode

/-- Settles O2: a word is the packing of its fields, and each field is checked or is an operand. -/
theorem encodeOfDecode : Obligations.EncodeOfDecode :=
  fun _ _ h => encode_of_decode h

/-- Settles O11, by what a word writes and what it is answered. -/
theorem stepRefinesSpecStep : Obligations.StepRefinesSpecStep :=
  fun s w => step_command w s

/-- Settles O4: the words that match a row are the ones that decode, and the command byte is checked by its bits. -/
theorem legalWordsAreTableRows : Obligations.LegalWordsAreTableRows := by
  refine ⟨fun w s => ⟨fun hlegal => ?_, fun hillegal => ?_⟩, fun b => ?_⟩
  · obtain ⟨i, hi⟩ := (legalWord_iff_decode w).mp hlegal
    exact ⟨i, hi, encode_of_decode hi, step_command_of_decode hi s⟩
  · obtain ⟨err, herr⟩ := (legalWord_eq_false_iff_decode w).mp hillegal
    exact step_command_of_decode_error herr s
  · rw [exists_legalWord_append_iff]
    revert b
    decide

/-- Settles O6, by the bits of the answer and the bits of a permuted value. -/
theorem rdkeyAnswerRightJustified : Obligations.RdkeyAnswerRightJustified := by
  refine ⟨fun s idx hvalid => ⟨0b00#2 ++ zext64 s.arch.rk[idx], ?_, extract_subkeyResponse_low _, ?_,
    extract_subkeyResponse_high _, statusOf_append _ _⟩, fun cd => msb_permute pc2 cd (by decide)⟩
  · rw [exec_eq, execResponse, scheduleResponse_of_valid hvalid]
    rfl
  · rw [getLsbD_subkeyResponse _ (by decide), BitVec.msb_eq_getLsbD_last]

/-- Settles O7: the step is the spec's `Step`, whose answer is read off for each result of the decoder. -/
theorem oneResponsePerCommand : Obligations.OneResponsePerCommand := by
  intro s w
  obtain ⟨hstatus, hdata⟩ := responseWellFormed_specStep s.arch w
  refine ⟨_, (specStep s.arch w).2, step_command w s, rfl, hstatus, hdata, fun err h => ?_, fun dir key h => ?_,
    fun block h => ?_, fun idx h => ?_⟩
  · rw [specStep_of_decode_error h]
    exact statusOf_append _ _
  · rw [specStep_of_decode h]
    exact ⟨statusOf_append _ _, dataOf_append _ _⟩
  · rw [specStep_of_decode h]
    exact status_data_scheduleResponse s.arch _
  · rw [specStep_of_decode h]
    exact status_data_scheduleResponse s.arch _

/-- Settles O26: a step adds the responses of one event to the earlier ones. -/
theorem responsesWellFormedKeptByStep : Obligations.ResponsesWellFormedKeptByStep := by
  intro s t hs h
  cases hp : s.port with
  | nil =>
    rw [step_of_port_eq_nil hp] at h
    cases h
    exact hs
  | cons e rest =>
    rw [step_of_port_eq_cons hp] at h
    cases h
    exact List.forall_mem_append.mpr ⟨hs, responseWellFormed_eventResponses s.arch e⟩

/-- Settles O33: the run is the spec's fold; `KEYGEN` loads the schedule and the sixteen reads leave it. -/
theorem rdschedDeliversSchedule : Obligations.RdschedDeliversSchedule := by
  intro s dir key rest hport
  refine (run_eq_specRun hport).trans ?_
  rw [presentAll_cons, specRun_encode_cons, specRun_presentAll_of_ne_keygen (by simp [rdsched]),
    map_execResponse_rdsched rfl]
  rfl

/-- Settles O3, by evaluating the decoder on the ten words. -/
theorem specWordsDecode : Obligations.SpecWordsDecode := by
  unfold Obligations.SpecWordsDecode
  decide

/-- Settles O8, by the command branch of the step. -/
theorem stepRunsDecodedCommand : Obligations.StepRunsDecodedCommand :=
  fun s _ _ h => step_command_of_decode h s

/-- Settles O10: the step is known for an empty port and for one with an event at its head. -/
theorem stepAlwaysGoesOn : Obligations.StepAlwaysGoesOn :=
  exists_step_eq_next

end Sys2Proof.Machine
end

section
/-! SUPPORT. A permuted value by its positions counted from the most significant end (40_permutation_engine.md R81): the
engine copies the bit at each entry's position, so what a table does to a value is read off its entries. -/

namespace Sys2Proof.Machine

/-! ## Bits by position (00_scope.md R12 b) -/

theorem pos_succ {w : Nat} (x : BitVec w) (i : Nat) : pos x (i + 1) = x.getLsbD (w - 1 - i) := by
  rw [pos, Nat.sub_add_eq, Nat.sub_right_comm]

/-- A value is determined by its bits at positions 1 to `w`. -/
theorem eq_of_pos_eq {w : Nat} {x y : BitVec w} (h : ∀ i < w, pos x (i + 1) = pos y (i + 1)) : x = y := by
  refine BitVec.eq_of_getLsbD_eq fun j hj => ?_
  have hpos := h (w - 1 - j) (by omega)
  rwa [pos_succ, pos_succ, show w - 1 - (w - 1 - j) = j by omega] at hpos

theorem pos_zero {w : Nat} (p : Nat) : pos 0#w p = false := BitVec.getLsbD_zero

theorem pos_allOnes {w p : Nat} (hp : 1 ≤ p ∧ p ≤ w) : pos (BitVec.allOnes w) p = true := by
  rw [pos, BitVec.getLsbD_allOnes, decide_eq_true_eq]
  omega

theorem pos_xor {w : Nat} (x y : BitVec w) (p : Nat) : pos (x ^^^ y) p = (pos x p ^^ pos y p) := BitVec.getLsbD_xor

/-- The value with the one bit at position `p` has no other. -/
theorem pos_twoPow {w p q : Nat} (hp : 1 ≤ p ∧ p ≤ w) (hq : 1 ≤ q ∧ q ≤ w) :
    pos (BitVec.twoPow w (w - p)) q = (q == p) := by
  rw [pos, BitVec.getLsbD_twoPow, Bool.eq_iff_iff]
  simp only [Bool.and_eq_true, decide_eq_true_eq, beq_iff_eq]
  omega

/-! ## The bits of a permuted value -/

theorem entries_getD_range {w n : Nat} (t : PermTable w n) {i : Nat} (hi : i < n) :
    1 ≤ t.entries.getD i 0 ∧ t.entries.getD i 0 ≤ w := by
  have hlen : i < t.entries.length := by rwa [entries_length]
  rw [List.getD_eq_getElem _ _ hlen]
  exact entries_range t (List.getElem_mem hlen)

theorem entries_eq_map_getD {w n : Nat} (t : PermTable w n) :
    t.entries = (List.range n).map fun i => t.entries.getD i 0 := by
  refine List.ext_getElem (by simp [entries_length]) fun i hi _ => ?_
  rw [List.getElem_map, List.getElem_range, List.getD_eq_getElem _ _ hi]

/-- Position `i + 1` of the output holds the input bit at the table's `i`-th position. -/
theorem pos_permute {w n : Nat} (t : PermTable w n) (x : BitVec w) {i : Nat} (hi : i < n) :
    pos (permute t x) (i + 1) = pos x (t.entries.getD i 0) := by
  rw [pos_succ, getLsbD_permute t x hi]

/-- One table undoes another when it names, for each position, the place to which the other has taken it. -/
theorem permute_permute_of_inverse {w n : Nat} {t : PermTable w n} {u : PermTable n w}
    (h : ∀ i < w, t.entries.getD (u.entries.getD i 0 - 1) 0 = i + 1) (x : BitVec w) :
    permute u (permute t x) = x := by
  refine eq_of_pos_eq fun i hi => ?_
  obtain ⟨hlow, hhigh⟩ := entries_getD_range u hi
  calc pos (permute u (permute t x)) (i + 1)
      = pos (permute t x) (u.entries.getD i 0 - 1 + 1) := by rw [pos_permute u _ hi, Nat.sub_add_cancel hlow]
    _ = pos x (i + 1) := by rw [pos_permute t x (by omega), h i hi]

/-! ## The number of one bits (40_permutation_engine.md R85) -/

/-- One bits may be counted from the most significant end. -/
theorem oneBits_eq_countP_pos {w : Nat} (x : BitVec w) :
    oneBits x = (List.range w).countP fun i => pos x (i + 1) := by
  have hreverse : (List.range w).reverse = (List.range w).map (w - 1 - ·) := by
    rw [List.range_eq_range', List.reverse_range', ← List.range_eq_range', Nat.zero_add]
  rw [oneBits, ← List.countP_reverse, hreverse, List.countP_map]
  simp only [Function.comp_def, pos_succ]

/-- The one bits of a permuted value are the entries that name a one bit of the input. -/
theorem oneBits_permute {w n : Nat} (t : PermTable w n) (x : BitVec w) :
    oneBits (permute t x) = t.entries.countP (pos x) := by
  rw [oneBits_eq_countP_pos]
  conv_rhs => rw [entries_eq_map_getD t, List.countP_map]
  refine List.countP_congr fun i hi => ?_
  rw [pos_permute t x (List.mem_range.mp hi), Function.comp_apply]

/-- A bijective table, whose entries are the positions 1 to `w` in some order, keeps the number of one bits. -/
theorem oneBits_permute_of_perm {w n : Nat} {t : PermTable w n} (h : t.entries.Perm ((List.range w).map (· + 1)))
    (x : BitVec w) : oneBits (permute t x) = oneBits x := by
  rw [oneBits_permute, h.countP_eq, List.countP_map, oneBits_eq_countP_pos]
  rfl

end Sys2Proof.Machine
end

section
/-! The statements about the Permutation Engine (40_permutation_engine.md). -/

namespace Sys2Proof.Machine

/-- Settles O36, by the bits of a permuted value and, for the one-bit inputs, the range of the table's entries. -/
theorem permuteClosedForm : Obligations.PermuteClosedForm := by
  intro w n t i hi
  refine ⟨fun x => ⟨getLsbD_permute t x hi, pos_permute t x hi⟩, fun p hp hpw => ?_⟩
  rw [getLsbD_permute t _ hi, pos_twoPow ⟨hp, hpw⟩ (entries_getD_range t hi)]

/-- Settles O37: every output bit is one input bit, and the three facts hold bit by bit. -/
theorem permuteIsLinear : Obligations.PermuteIsLinear := by
  refine fun w n t => ⟨eq_of_pos_eq fun i hi => ?_, eq_of_pos_eq fun i hi => ?_,
    fun a b => eq_of_pos_eq fun i hi => ?_⟩
  · rw [pos_permute t _ hi, pos_zero, pos_zero]
  · rw [pos_permute t _ hi, pos_allOnes (entries_getD_range t hi), pos_allOnes (by omega)]
  · rw [pos_permute t _ hi, pos_xor, pos_xor, pos_permute t a hi, pos_permute t b hi]

/-- Settles O38: each of the three tables lists every position once. -/
theorem bijectiveTablesKeepOneBits : Obligations.BijectiveTablesKeepOneBits :=
  ⟨fun x => ⟨oneBits_permute_of_perm (by decide) x, oneBits_permute_of_perm (by decide) x⟩,
    oneBits_permute_of_perm (by decide)⟩

/-- Settles O39: each of the two tables names the places to which the other takes the positions. -/
theorem finalPermutationInvertsInitial : Obligations.FinalPermutationInvertsInitial :=
  fun x => ⟨permute_permute_of_inverse (by decide) x, permute_permute_of_inverse (by decide) x⟩

end Sys2Proof.Machine
end

section
/-! SUPPORT. The S-Box Network (41_sbox_network.md): a row of a box is a permutation of 0 to 15, so no entry is cut off
by the nibble's width and no value is missed; shifting a nibble in appends it. -/

namespace Sys2Proof.Machine

/-! ## The rows of a box (R104) -/

/-- Sixteen entries among which the values 0 to 15 all occur are these values in some order. -/
theorem perm_range_of_sboxRowWf {row : List Nat} (h : sboxRowWf row = true) : row.Perm (List.range 16) := by
  simp only [sboxRowWf, Bool.and_eq_true, beq_iff_eq, List.all_eq_true, List.contains_iff_mem] at h
  obtain ⟨hlen, hmem⟩ := h
  exact ((List.subperm_of_subset List.nodup_range hmem).perm_of_length_le (by simp [hlen])).symm

theorem row_perm_range (t : SBoxTable) {r : Nat} (hr : r < 4) : (t.rows.getD r []).Perm (List.range 16) := by
  have hok := t.ok
  simp only [sboxTableWf, Bool.and_eq_true, beq_iff_eq, List.all_eq_true] at hok
  obtain ⟨hlen, hrows⟩ := hok
  rw [List.getD_eq_getElem _ _ (by omega)]
  exact perm_range_of_sboxRowWf (hrows _ (List.getElem_mem _))

theorem row_length (t : SBoxTable) {r : Nat} (hr : r < 4) : (t.rows.getD r []).length = 16 := by
  rw [(row_perm_range t hr).length_eq, List.length_range]

theorem entry_lt_sixteen (t : SBoxTable) {r c : Nat} (hr : r < 4) (hc : c < 16) :
    (t.rows.getD r []).getD c 0 < 16 := by
  rw [List.getD_eq_getElem _ _ (by rwa [row_length t hr])]
  exact List.mem_range.mp ((row_perm_range t hr).subset (List.getElem_mem _))

/-- A row holds every value in one of its columns. -/
theorem exists_column (t : SBoxTable) {r : Nat} (hr : r < 4) (v : Nibble) :
    ∃ col : Nibble, (t.rows.getD r []).getD col.toNat 0 = v.toNat := by
  have hmem := (row_perm_range t hr).symm.subset (List.mem_range.mpr v.isLt)
  obtain ⟨c, hc, hentry⟩ := List.getElem_of_mem hmem
  refine ⟨BitVec.ofNatLT c (by rwa [row_length t hr] at hc), ?_⟩
  rw [BitVec.toNat_ofNatLT, List.getD_eq_getElem _ _ hc, hentry]

/-! ## Row and column of a chunk (R102), and the lookup (R103) -/

theorem chunkRow_lt_four (c : Chunk) : chunkRow c < 4 := by
  have h5 := (c.getLsbD 5).toNat_lt
  have h0 := (c.getLsbD 0).toNat_lt
  rw [chunkRow]
  omega

theorem chunkCol_lt_sixteen (c : Chunk) : chunkCol c < 16 := (c.extractLsb' 1 4).isLt

theorem toNat_lookup (t : SBoxTable) (c : Chunk) :
    (lookup t c).toNat = (t.rows.getD (chunkRow c) []).getD (chunkCol c) 0 := by
  rw [lookup, BitVec.toNat_ofNat]
  exact Nat.mod_eq_of_lt (entry_lt_sixteen t (chunkRow_lt_four c) (chunkCol_lt_sixteen c))

/-- The two end bits and the middle four may be chosen freely. -/
theorem exists_chunk (hi lo : Bool) (col : Nibble) :
    ∃ c : Chunk, c.getLsbD 5 = hi ∧ c.getLsbD 0 = lo ∧ chunkCol c = col.toNat := by
  refine ⟨BitVec.ofBool hi ++ col ++ BitVec.ofBool lo, ?_⟩
  revert hi lo col
  decide

/-- Every row of every box reaches every value. -/
theorem exists_lookup_eq (t : SBoxTable) (hi lo : Bool) (v : Nibble) :
    ∃ c : Chunk, c.getLsbD 5 = hi ∧ c.getLsbD 0 = lo ∧ lookup t c = v := by
  have hr : hi.toNat * 2 + lo.toNat < 4 := by
    have := hi.toNat_lt
    have := lo.toNat_lt
    omega
  obtain ⟨col, hentry⟩ := exists_column t hr v
  obtain ⟨c, hhi, hlo, hcol⟩ := exists_chunk hi lo col
  refine ⟨c, hhi, hlo, BitVec.eq_of_toNat_eq ?_⟩
  rw [toNat_lookup, chunkRow, hhi, hlo, hcol, hentry]

/-! ## The network (R100 and R101) -/

/-- Shifting a nibble in appends it, for as many bits as the output holds. -/
theorem shiftInNibble_setWidth {n : Nat} (x : BitVec 48) (acc : BitVec n) (b : SBoxTable × Nat) :
    shiftInNibble x (acc.setWidth 32) b = (acc ++ lookup b.1 (x.extractLsb' b.2 6)).setWidth 32 :=
  BitVec.setWidth_append_eq_shiftLeft_setWidth_or.symm

/-- The first nibble is shifted into an empty accumulator. -/
theorem shiftInNibble_zero (x : BitVec 48) (b : SBoxTable × Nat) :
    shiftInNibble x 0#32 b = (lookup b.1 (x.extractLsb' b.2 6)).setWidth 32 := by
  simp [shiftInNibble]

/-- The output is the concatenation of the looked-up nibbles, that of chunk 1 on top. -/
theorem sboxNet_eq_append (x : BitVec 48) :
    sboxNet x =
      lookup sbox1 (x.extractLsb' 42 6) ++ lookup sbox2 (x.extractLsb' 36 6) ++ lookup sbox3 (x.extractLsb' 30 6) ++
      lookup sbox4 (x.extractLsb' 24 6) ++ lookup sbox5 (x.extractLsb' 18 6) ++ lookup sbox6 (x.extractLsb' 12 6) ++
      lookup sbox7 (x.extractLsb' 6 6) ++ lookup sbox8 (x.extractLsb' 0 6) := by
  simp only [sboxNet, sboxes, List.foldl_cons, List.foldl_nil, shiftInNibble_zero, shiftInNibble_setWidth]
  exact BitVec.setWidth_eq _

/-- The lowest nibble is the new one. -/
theorem extract_shiftInNibble_low (x : BitVec 48) (acc : BitVec 32) (b : SBoxTable × Nat) :
    (shiftInNibble x acc b).extractLsb' 0 4 = lookup b.1 (x.extractLsb' b.2 6) := by
  apply BitVec.eq_of_getLsbD_eq
  intro i hi
  simp [shiftInNibble, hi, show i < 32 by omega]

/-- Every higher nibble is the accumulator's next lower one. -/
theorem extract_shiftInNibble_high (x : BitVec 48) (acc : BitVec 32) (b : SBoxTable × Nat) {k : Nat}
    (hk : k + 8 ≤ 32) : (shiftInNibble x acc b).extractLsb' (k + 4) 4 = acc.extractLsb' k 4 := by
  apply BitVec.eq_of_getLsbD_eq
  intro i hi
  have hhigh : (lookup b.1 (x.extractLsb' b.2 6)).getLsbD (k + 4 + i) = false := BitVec.getLsbD_of_ge _ _ (by omega)
  simp [shiftInNibble, hhigh, hi, show k + 4 + i < 32 by omega, show ¬ k + 4 + i < 4 by omega,
    show k + 4 + i - 4 = k + i by omega, -BitVec.getLsbD_eq_getElem]

/-- Nibble `n` is that of chunk `n`: `7 - n` nibbles are shifted in after it, counting from 0. -/
theorem extract_sboxNet (x : BitVec 48) (n : Fin 8) :
    (sboxNet x).extractLsb' ((7 - n.val) * 4) 4 =
      lookup (sboxes.map Prod.fst)[n] (x.extractLsb' ((7 - n.val) * 6) 6) := by
  fin_cases n <;> simp [sboxNet, sboxes, extract_shiftInNibble_high, extract_shiftInNibble_low]

/-- The triple 4, 2, 0 refutes the affine law for all eight boxes. -/
theorem lookup_not_affine {b : SBoxTable × Nat} (hb : b ∈ sboxes) :
    lookup b.1 (4 ^^^ 2 ^^^ 0) ≠ lookup b.1 4 ^^^ lookup b.1 2 ^^^ lookup b.1 0 := by
  revert b
  decide

end Sys2Proof.Machine
end

section
/-! The statements about the S-Box Network (41_sbox_network.md). -/

namespace Sys2Proof.Machine

/-- Settles O40: shifting a nibble in appends it, and an entry of a row is less than 16. -/
theorem sboxNetIsEightNibbles : Obligations.SboxNetIsEightNibbles :=
  fun x => ⟨sboxNet_eq_append x, extract_sboxNet x, toNat_lookup⟩

/-- Settles O41: a row is a permutation of 0 to 15, and the triple 4, 2, 0 breaks the affine law. -/
theorem sboxesNonlinear : Obligations.SboxesNonlinear :=
  fun b hb => ⟨exists_lookup_eq b.1, fun h => lookup_not_affine hb (h 4 2 0)⟩

end Sys2Proof.Machine
end

section
/-! SUPPORT. The Key Schedule (42_key_schedule.md): `rotl28` is rotation of a 28-bit value, so the rotations of the
rounds add up to `ROT[r]`; the eight swaps reverse the schedule; and the key is read through PC-1 alone. -/

namespace Sys2Proof.Machine

/-! ## Rotation in 28 bits (R124) -/

theorem rotl28_eq_rotateLeft (v : KeyHalf) {s : Nat} (hs : s < 28) : rotl28 v s = v.rotateLeft s := by
  rw [rotl28, BitVec.rotateLeft_def, Nat.mod_eq_of_lt hs]

/-- Bit `j` of a rotated half is the bit `m` places lower, counted round the 28 bits. -/
theorem getLsbD_keyHalf_rotateLeft (v : KeyHalf) (m : Nat) {j : Nat} (hj : j < 28) :
    (v.rotateLeft m).getLsbD j = v.getLsbD ((j + 28 - m % 28) % 28) := by
  rw [BitVec.getLsbD_rotateLeft]
  by_cases hwrap : j < m % 28
  · rw [decide_eq_true hwrap, cond_true, show (j + 28 - m % 28) % 28 = 28 - m % 28 + j by omega]
  · rw [decide_eq_false hwrap, cond_false, decide_eq_true hj, Bool.true_and,
      show (j + 28 - m % 28) % 28 = j - m % 28 by omega]

theorem getLsbD_rotl28 (v : KeyHalf) {s j : Nat} (hs : s < 28) (hj : j < 28) :
    (rotl28 v s).getLsbD j = v.getLsbD ((j + 28 - s) % 28) := by
  rw [rotl28_eq_rotateLeft v hs, getLsbD_keyHalf_rotateLeft v s hj, Nat.mod_eq_of_lt hs]

/-- The rule's formula on numbers: the mask cuts the left shift to 28 bits. -/
theorem toNat_rotl28 (v : KeyHalf) (s : Nat) :
    (rotl28 v s).toNat = ((v.toNat <<< s) ||| (v.toNat >>> (28 - s))) &&& 0xFFFFFFF := by
  have hright : v.toNat >>> (28 - s) < 2 ^ 28 := (v >>> (28 - s)).isLt
  calc (rotl28 v s).toNat
      = v.toNat <<< s % 2 ^ 28 ||| v.toNat >>> (28 - s) := rfl
    _ = (v.toNat <<< s ||| v.toNat >>> (28 - s)) % 2 ^ 28 := by rw [Nat.or_mod_two_pow, Nat.mod_eq_of_lt hright]
    _ = (v.toNat <<< s ||| v.toNat >>> (28 - s)) &&& 0xFFFFFFF := (Nat.and_two_pow_sub_one_eq_mod _ 28).symm

/-- The top `s` bits come round to the low end, in the same order. -/
theorem extract_rotl28_low (v : KeyHalf) {s : Nat} (hs : s < 28) :
    (rotl28 v s).extractLsb' 0 s = v.extractLsb' (28 - s) s := by
  apply BitVec.eq_of_getLsbD_eq
  intro j hj
  rw [BitVec.getLsbD_extractLsb', BitVec.getLsbD_extractLsb', Nat.zero_add, getLsbD_rotl28 v hs (by omega),
    show (j + 28 - s) % 28 = 28 - s + j by omega]

/-- Rotations add up. -/
theorem keyHalf_rotateLeft_rotateLeft (v : KeyHalf) (a b : Nat) :
    (v.rotateLeft a).rotateLeft b = v.rotateLeft (a + b) := by
  apply BitVec.eq_of_getLsbD_eq
  intro j hj
  rw [getLsbD_keyHalf_rotateLeft _ b hj, getLsbD_keyHalf_rotateLeft v a (Nat.mod_lt _ (by decide)),
    getLsbD_keyHalf_rotateLeft v (a + b) hj,
    show ((j + 28 - b % 28) % 28 + 28 - a % 28) % 28 = (j + 28 - (a + b) % 28) % 28 by omega]

/-- A rotation by all 28 places is none. -/
theorem keyHalf_rotateLeft_full (v : KeyHalf) : v.rotateLeft 28 = v := by
  apply BitVec.eq_of_getLsbD_eq
  intro j hj
  rw [getLsbD_keyHalf_rotateLeft v 28 hj, show (j + 28 - 28 % 28) % 28 = j by omega]

/-- A half whose bits are all the same is not changed by a rotation. -/
theorem keyHalf_rotateLeft_of_uniform {v : KeyHalf} (h : v = 0#28 ∨ v = BitVec.allOnes 28) (m : Nat) :
    v.rotateLeft m = v := by
  apply BitVec.eq_of_getLsbD_eq
  intro j hj
  have hround : (j + 28 - m % 28) % 28 < 28 := Nat.mod_lt _ (by decide)
  rw [getLsbD_keyHalf_rotateLeft v m hj]
  rcases h with rfl | rfl
  · rw [BitVec.getLsbD_zero, BitVec.getLsbD_zero]
  · rw [BitVec.getLsbD_allOnes, BitVec.getLsbD_allOnes, decide_eq_true hround, decide_eq_true hj]

/-! ## The halves and the subkeys by their total rotation (R125 and R126) -/

theorem shiftCount_lt {r : Nat} (hr : r < 16) : shiftCount r < 28 := by
  revert r
  decide

/-- Both halves are rotated by the same count, each by itself (R125). -/
theorem keyHalves_succ (key : Key) {r : Nat} (hr : r < 16) :
    keyHalves key (r + 1) =
      ((keyHalves key r).1.rotateLeft (shiftCount r), (keyHalves key r).2.rotateLeft (shiftCount r)) := by
  rw [keyHalves, rotl28_eq_rotateLeft _ (shiftCount_lt hr), rotl28_eq_rotateLeft _ (shiftCount_lt hr)]

/-- `ROT` adds the shifts up. -/
theorem totalRotation_succ {r : Nat} (hr : r + 1 < 16) :
    totalRotation (r + 1) = totalRotation r + shiftCount (r + 1) := by
  have hall : ∀ r < 15, totalRotation (r + 1) = totalRotation r + shiftCount (r + 1) := by decide
  exact hall r (by omega)

/-- When `K[r]` is taken, the halves are `C_0` and `D_0` rotated by `ROT[r]`. -/
theorem keyHalves_eq_rotateLeft (key : Key) {r : Nat} (hr : r < 16) :
    keyHalves key (r + 1) =
      ((keyHalves key 0).1.rotateLeft (totalRotation r), (keyHalves key 0).2.rotateLeft (totalRotation r)) := by
  induction r with
  | zero => exact keyHalves_succ key hr
  | succ r ih =>
    rw [keyHalves_succ key hr, ih (by omega), keyHalf_rotateLeft_rotateLeft, keyHalf_rotateLeft_rotateLeft,
      ← totalRotation_succ hr]

theorem roundKey_eq_rotateLeft (key : Key) {r : Nat} (hr : r < 16) :
    roundKey key r =
      permute pc2 ((keyHalves key 0).1.rotateLeft (totalRotation r) ++
        (keyHalves key 0).2.rotateLeft (totalRotation r)) := by
  rw [roundKey, keyHalves_eq_rotateLeft key hr]

/-- The total rotation of the sixteen rounds is 28. -/
theorem keyHalves_sixteen (key : Key) : keyHalves key 16 = keyHalves key 0 := by
  rw [keyHalves_eq_rotateLeft key (by decide), show totalRotation 15 = 28 from rfl, keyHalf_rotateLeft_full,
    keyHalf_rotateLeft_full]

/-! ## The order of the subkeys (R127 and R128) -/

/-- Both indices of a swap of R127 are in bounds. -/
theorem swapIfInBounds_opposite_eq_swap (sched : Schedule) {m : Nat} (hm : m < 8) :
    sched.swapIfInBounds m (15 - m) = sched.swap m (15 - m) := by
  rw [← Vector.toArray_inj, Vector.toArray_swapIfInBounds, Vector.toArray_swap, Array.swapIfInBounds_def,
    dif_pos (by rw [sched.size_toArray]; omega), dif_pos (by rw [sched.size_toArray]; omega)]

/-- One swap of R127 exchanges the two entries of its pair and leaves every other one. -/
theorem getElem_swapIfInBounds_opposite (sched : Schedule) {m j : Nat} (hm : m < 8) (hj : j < 16) :
    (sched.swapIfInBounds m (15 - m))[j] = if j = m ∨ 15 - j = m then sched[15 - j] else sched[j] := by
  simp only [swapIfInBounds_opposite_eq_swap sched hm, Vector.getElem_swap]
  by_cases hlow : j = m
  · subst hlow
    rw [if_pos rfl, if_pos (.inl rfl)]
  by_cases hhigh : 15 - j = m
  · subst hhigh
    rw [if_neg hlow, if_pos (by omega), if_pos (.inr rfl)]
  · rw [if_neg hlow, if_neg (by omega), if_neg (not_or.mpr ⟨hlow, hhigh⟩)]

/-- After the swaps below `m` the entries outside the indices from `m` to `15 - m` have changed places. -/
theorem getElem_foldl_swapIfInBounds (sched : Schedule) {m j : Nat} (hm : m ≤ 8) (hj : j < 16) :
    ((List.range m).foldl (fun k i => k.swapIfInBounds i (15 - i)) sched)[j] =
      if j < m ∨ 15 - j < m then sched[15 - j] else sched[j] := by
  induction m generalizing j with
  | zero => rfl
  | succ m ih =>
    simp only [List.range_succ, List.foldl_concat]
    rw [getElem_swapIfInBounds_opposite _ (by omega) hj, ih (by omega) (by omega), ih (by omega) hj]
    by_cases hpair : j = m ∨ 15 - j = m
    · rw [if_pos hpair, if_neg (by omega), if_pos (by omega)]
    · rw [if_neg hpair]
      exact if_congr (by omega) rfl rfl

/-- Eight swaps reach every entry. -/
theorem reversePairwise_eq_reverse (sched : Schedule) : reversePairwise sched = sched.reverse := by
  apply Vector.ext
  intro j hj
  rw [Vector.getElem_reverse, reversePairwise, getElem_foldl_swapIfInBounds sched le_rfl hj, if_pos (by omega)]

theorem getElem_ks_encrypt (key : Key) {i : Nat} (hi : i < 16) : (ks key .encrypt)[i] = roundKey key i :=
  Vector.getElem_ofFn hi

theorem ks_decrypt (key : Key) : ks key .decrypt = (ks key .encrypt).reverse := reversePairwise_eq_reverse _

theorem getElem_ks_decrypt (key : Key) {i : Nat} (hi : i < 16) : (ks key .decrypt)[i] = roundKey key (15 - i) := by
  simp only [ks_decrypt, Vector.getElem_reverse]
  exact getElem_ks_encrypt key _

/-- Every entry in either order is some derived subkey. -/
theorem exists_getElem_ks_eq_roundKey (key : Key) (dir : Direction) (i : Fin 16) :
    ∃ r < 16, (ks key dir)[i] = roundKey key r := by
  cases dir with
  | encrypt => exact ⟨i, i.isLt, getElem_ks_encrypt key i.isLt⟩
  | decrypt => exact ⟨15 - i, by omega, getElem_ks_decrypt key i.isLt⟩

/-! ## What the schedule depends on (R121 and R129) -/

/-- A permuted value depends only on the bits that the table names. -/
theorem permute_congr {w n : Nat} (t : PermTable w n) {x y : BitVec w} (h : ∀ p ∈ t.entries, pos x p = pos y p) :
    permute t x = permute t y :=
  List.foldl_ext _ _ _ fun acc p hp => by rw [h p hp]

theorem pos_and {w : Nat} (x y : BitVec w) (p : Nat) : pos (x &&& y) p = (pos x p && pos y p) := BitVec.getLsbD_and

/-- PC-1 names no parity position. -/
theorem pos_parityMask_of_mem_pc1 {p : Nat} (hp : p ∈ pc1.entries) : pos 0xFEFEFEFEFEFEFEFE#64 p = true := by
  revert p
  decide

theorem permute_pc1_eq_of_parity {k1 k2 : Key} (h : (k1 ^^^ k2) &&& 0xFEFEFEFEFEFEFEFE#64 = 0#64) :
    permute pc1 k1 = permute pc1 k2 := by
  refine permute_congr pc1 fun p hp => ?_
  have hpos : pos ((k1 ^^^ k2) &&& 0xFEFEFEFEFEFEFEFE#64) p = false := by rw [h, pos_zero]
  rw [pos_and, pos_parityMask_of_mem_pc1 hp, Bool.and_true, pos_xor] at hpos
  simpa using hpos

/-- The schedule depends on the key only through PC-1. -/
theorem ks_congr {k1 k2 : Key} (h : permute pc1 k1 = permute pc1 k2) (dir : Direction) : ks k1 dir = ks k2 dir := by
  have hhalves : keyHalves k1 0 = keyHalves k2 0 := by rw [keyHalves, keyHalves, h]
  have hderived : derivedKeys k1 = derivedKeys k2 := by
    refine congrArg Vector.ofFn (funext fun r => ?_)
    rw [roundKey_eq_rotateLeft k1 r.isLt, roundKey_eq_rotateLeft k2 r.isLt, hhalves]
  cases dir with
  | encrypt => exact hderived
  | decrypt => exact congrArg reversePairwise hderived

/-! ## Keys with uniform halves (R132) -/

/-- All sixteen subkeys are those of the first halves, in either order. -/
theorem getElem_ks_of_uniform {key : Key}
    (hc : (keyHalves key 0).1 = 0#28 ∨ (keyHalves key 0).1 = BitVec.allOnes 28)
    (hd : (keyHalves key 0).2 = 0#28 ∨ (keyHalves key 0).2 = BitVec.allOnes 28) (dir : Direction) (i : Fin 16) :
    (ks key dir)[i] = permute pc2 ((keyHalves key 0).1 ++ (keyHalves key 0).2) := by
  obtain ⟨r, hr, hkey⟩ := exists_getElem_ks_eq_roundKey key dir i
  rw [hkey, roundKey_eq_rotateLeft key hr, keyHalf_rotateLeft_of_uniform hc, keyHalf_rotateLeft_of_uniform hd]

end Sys2Proof.Machine
end

section
/-! SUPPORT. The Block Transform (44_block_transform.md): a round undoes the round of the same subkey on exchanged
halves, so a pass over the reversed schedule undoes a pass (R157). -/

namespace Sys2Proof.Machine

/-- The two halves exchanged, as the final swap leaves them (44_block_transform.md R154). -/
def Halves.exchange (h : Halves) : Halves where
  left := h.right
  right := h.left

/-- The round of the same subkey undoes a round, the halves being exchanged before and after. -/
theorem desRound_exchange_desRound (h : Halves) (k : Subkey) :
    desRound (desRound h k).exchange k = h.exchange := by
  simp only [desRound, Halves.exchange, BitVec.xor_assoc, BitVec.xor_self, BitVec.xor_zero]

/-- The rounds in reverse order undo the rounds. -/
theorem foldl_desRound_reverse (subkeys : List Subkey) (h : Halves) :
    subkeys.reverse.foldl desRound (subkeys.foldl desRound h).exchange = h.exchange := by
  induction subkeys generalizing h with
  | nil => rfl
  | cons k subkeys ih => rw [List.reverse_cons, List.foldl_concat, List.foldl_cons, ih, desRound_exchange_desRound]

theorem desRounds_reverse (sched : Schedule) (h : Halves) :
    desRounds sched.reverse (desRounds sched h).exchange = h.exchange := by
  rw [desRounds, desRounds, Vector.toList_reverse, foldl_desRound_reverse]

/-- The halves of a result are those of the last round, exchanged: IP undoes FP (40_permutation_engine.md R90). -/
theorem splitBlock_des (block : Block) (sched : Schedule) :
    splitBlock (des block sched) = (desRounds sched (splitBlock block)).exchange := by
  rw [splitBlock, des, (finalPermutationInvertsInitial _).2, joinSwapped, extract_append_high, extract_append_low]
  rfl

/-- The final swap of exchanged halves puts the permuted block together again. -/
theorem joinSwapped_exchange_splitBlock (block : Block) :
    joinSwapped (splitBlock block).exchange = permute ip block :=
  BitVec.extractLsb'_append_extractLsb'

/-- A pass over the reversed schedule undoes a pass (44_block_transform.md R157). -/
theorem des_des_reverse (block : Block) (sched : Schedule) : des (des block sched) sched.reverse = block := by
  rw [des, splitBlock_des, desRounds_reverse, joinSwapped_exchange_splitBlock, (finalPermutationInvertsInitial _).1]

/-- A schedule of equal entries is its own reversal. -/
theorem schedule_reverse_of_equal {sched : Schedule} {k : Subkey} (h : ∀ i : Fin 16, sched[i] = k) :
    sched.reverse = sched := by
  apply Vector.ext
  intro i hi
  rw [Vector.getElem_reverse]
  exact (h ⟨15 - i, by omega⟩).trans (h ⟨i, hi⟩).symm

end Sys2Proof.Machine
end

section
/-! The statements about the Key Schedule (42_key_schedule.md). -/

namespace Sys2Proof.Machine

/-- Settles O42: each reading of the rule is a lemma about `rotl28`; the examples are evaluated. -/
theorem rotationInTwentyEightBits : Obligations.RotationInTwentyEightBits := by
  refine ⟨fun v s hs => ?_, fun _ _ => rfl, by decide⟩
  have hs28 : s < 28 := by omega
  exact ⟨toNat_rotl28 v s, fun j hj => getLsbD_rotl28 v hs28 hj, extract_rotl28_low v hs28⟩

/-- Settles O43, by induction on the round: the rotations of the rounds add up. -/
theorem subkeysByTotalRotation : Obligations.SubkeysByTotalRotation :=
  fun key => ⟨fun r => (getElem_ks_encrypt key r.isLt).trans (roundKey_eq_rotateLeft key r.isLt),
    keyHalves_sixteen key⟩

/-- Settles O44: the eight swaps reverse the schedule. -/
theorem scheduleSymmetry : Obligations.ScheduleSymmetry := by
  refine ⟨fun key i => ?_, fun key => ?_, fun sched => ?_⟩
  · have hdecrypt := getElem_ks_decrypt key i.isLt
    exact ⟨getElem_ks_encrypt key i.isLt, hdecrypt, hdecrypt.trans (getElem_ks_encrypt key _).symm⟩
  · rw [ks_decrypt, Vector.toList_reverse]
    exact List.reverse_perm _
  · rw [reversePairwise_eq_reverse, reversePairwise_eq_reverse, Vector.reverse_reverse]

/-- Settles O45: PC-1 names no parity position, and the schedule depends on the key through PC-1. -/
theorem parityBitsIgnored : Obligations.ParityBitsIgnored :=
  fun _ _ dir h => ks_congr (permute_pc1_eq_of_parity h) dir

/-- Settles O46: rotation leaves uniform halves alone; for each of the four keys the evaluation of PC-1 shows that its
halves are uniform, and that of PC-2 gives its subkey. -/
theorem weakKeySchedules : Obligations.WeakKeySchedules := by
  refine ⟨fun _ dir hc hd => getElem_ks_of_uniform hc hd dir, fun dir i => ⟨?_, ?_, ?_, ?_⟩⟩
  all_goals exact (getElem_ks_of_uniform (by decide +kernel) (by decide +kernel) dir i).trans (by decide +kernel)

/-- Settles O51: the schedule is its own reversal, and the reversed schedule undoes the first pass. -/
theorem equalSubkeysMakeXformSelfInverse : Obligations.EqualSubkeysMakeXformSelfInverse := by
  intro s block k rest hvalid hequal hport
  have hinverse := des_des_reverse block s.arch.rk
  rw [schedule_reverse_of_equal hequal] at hinverse
  refine (run_eq_specRun hport).trans ?_
  rw [specRun_presentAll_of_ne_keygen (by simp)]
  simp only [List.map_cons, List.map_nil, execResponse, scheduleResponse_of_valid hvalid, hinverse]

/-- Settles O12, by the equation of `exec`. -/
theorem keygenLoadsSchedule : Obligations.KeygenLoadsSchedule :=
  fun dir key s => exec_eq (.keygen dir key) s

/-- Settles O14, by the equation of `exec` and the answer of a reader under a valid schedule. -/
theorem rdkeyReadsSubkey : Obligations.RdkeyReadsSubkey := by
  intro idx s hvalid
  rw [exec_eq, execResponse, scheduleResponse_of_valid hvalid]
  rfl

end Sys2Proof.Machine
end

section
/-! SUPPORT. Complementation (43_feistel_round.md R143, 95_test_vectors.md section 6.4): permutations, rotations and the
splits carry a complement through, and in `F` the complements of half-block and subkey cancel in the XOR before the
S-boxes. -/

namespace Sys2Proof.Machine

/-- A table carries complement through, for the complement is the XOR with all ones (40_permutation_engine.md R85). -/
theorem permute_not {w n : Nat} (t : PermTable w n) (x : BitVec w) : permute t (~~~x) = ~~~(permute t x) := by
  obtain ⟨-, hones, hxor⟩ := permuteIsLinear w n t
  rw [← BitVec.xor_allOnes, hxor, hones, BitVec.xor_allOnes]

/-- A slice inside the value carries complement through, the topmost slice too (`BitVec.extractLsb'_not_of_lt` leaves
it out). -/
theorem extract_not {w : Nat} (x : BitVec w) {start len : Nat} (h : start + len ≤ w) :
    (~~~x).extractLsb' start len = ~~~(x.extractLsb' start len) := by
  apply BitVec.eq_of_getLsbD_eq
  intro i hi
  have hin : start + i < w := by omega
  simp only [BitVec.getLsbD_extractLsb', BitVec.getLsbD_not, hi, hin, decide_true, Bool.true_and]

/-! ## The Key Schedule of a complemented key -/

theorem keyHalf_rotateLeft_not (v : KeyHalf) (m : Nat) : (~~~v).rotateLeft m = ~~~(v.rotateLeft m) := by
  apply BitVec.eq_of_getLsbD_eq
  intro j hj
  have hround : (j + 28 - m % 28) % 28 < 28 := Nat.mod_lt _ (by decide)
  rw [getLsbD_keyHalf_rotateLeft _ m hj, BitVec.getLsbD_not, BitVec.getLsbD_not, getLsbD_keyHalf_rotateLeft v m hj,
    decide_eq_true hround, decide_eq_true hj]

theorem keyHalves_zero_not (key : Key) :
    keyHalves (~~~key) 0 = (~~~(keyHalves key 0).1, ~~~(keyHalves key 0).2) := by
  rw [keyHalves, keyHalves, permute_not, extract_not _ (by decide), extract_not _ (by decide)]

theorem roundKey_not (key : Key) {r : Nat} (hr : r < 16) : roundKey (~~~key) r = ~~~(roundKey key r) := by
  rw [roundKey_eq_rotateLeft _ hr, roundKey_eq_rotateLeft key hr, keyHalves_zero_not, keyHalf_rotateLeft_not,
    keyHalf_rotateLeft_not, ← BitVec.not_append, permute_not]

/-- The schedule of the complemented key is the schedule with every entry complemented, in either order. -/
theorem ks_not (key : Key) (dir : Direction) : ks (~~~key) dir = (ks key dir).map (~~~ ·) := by
  apply Vector.ext
  intro i hi
  rw [Vector.getElem_map]
  cases dir with
  | encrypt => rw [getElem_ks_encrypt _ hi, getElem_ks_encrypt key hi, roundKey_not key hi]
  | decrypt => rw [getElem_ks_decrypt _ hi, getElem_ks_decrypt key hi, roundKey_not key (by omega)]

/-! ## The rounds on complemented halves -/

/-- The complement of half-block and subkey cancels in the XOR of `F` (43_feistel_round.md R140). -/
theorem feistel_not_not (r : Half) (k : Subkey) : feistel (~~~r) (~~~k) = feistel r k := by
  have hcancel : ~~~(permute expansion r) ^^^ ~~~k = permute expansion r ^^^ k := by
    rw [← BitVec.not_xor_left, ← BitVec.not_xor_right, BitVec.not_not]
  rw [feistel, feistel, permute_not, hcancel]

/-- Both halves complemented. -/
def Halves.complement (h : Halves) : Halves where
  left := ~~~h.left
  right := ~~~h.right

/-- A round carries complement through: `F` does not see it, and the XOR with `L` does. -/
theorem desRound_complement (h : Halves) (k : Subkey) :
    desRound h.complement (~~~k) = (desRound h k).complement := by
  simp only [desRound, Halves.complement, feistel_not_not, BitVec.not_xor_left]

/-- So do the sixteen rounds, one after another. -/
theorem desRounds_complement (sched : Schedule) (h : Halves) :
    desRounds (sched.map (~~~ ·)) h.complement = (desRounds sched h).complement := by
  rw [desRounds, desRounds, Vector.toList_map, List.foldl_map]
  exact List.foldl_hom Halves.complement desRound_complement

theorem splitBlock_not (block : Block) : splitBlock (~~~block) = (splitBlock block).complement := by
  simp only [splitBlock, Halves.complement, permute_not, extract_not _ (show 32 + 32 ≤ 64 by decide),
    extract_not _ (show 0 + 32 ≤ 64 by decide)]

theorem joinSwapped_complement (h : Halves) : joinSwapped h.complement = ~~~(joinSwapped h) :=
  BitVec.not_append.symm

/-- Complementing the block and every subkey complements the result. -/
theorem des_not_map_not (block : Block) (sched : Schedule) :
    des (~~~block) (sched.map (~~~ ·)) = ~~~(des block sched) := by
  rw [des, des, splitBlock_not, desRounds_complement, joinSwapped_complement, permute_not]

end Sys2Proof.Machine
end

section
/-! The statements about complementation (43_feistel_round.md R143, 95_test_vectors.md section 6.4). -/

namespace Sys2Proof.Machine

/-- Settles O52: the complemented key's schedule is the complemented schedule, and every stage of `DES` carries
complement through. -/
theorem desComplementation : Obligations.DesComplementation := by
  intro key block dir
  rw [ks_not, des_not_map_not]

/-- Settles O47: the two complements cancel in the XOR before the S-boxes. -/
theorem feistelComplement : Obligations.FeistelComplement := feistel_not_not

end Sys2Proof.Machine
end

section
/-! SUPPORT. The halves `L_n` and `R_n` round by round (44_block_transform.md R152 to R154), and when a schedule is the
reversal of another. -/

namespace Sys2Proof.Machine

/-- `L_n` and `R_n`: the halves after the first `n` rounds (44_block_transform.md R153). -/
def halvesAfter (sched : Schedule) (h : Halves) (n : Nat) : Halves := (sched.toList.take n).foldl desRound h

/-- Round `r` is the Feistel rule with entry `r` of the schedule. -/
theorem halvesAfter_succ (sched : Schedule) (h : Halves) {r : Nat} (hr : r < 16) :
    halvesAfter sched h (r + 1) = desRound (halvesAfter sched h r) sched[r] := by
  have hlength : r < sched.toList.length := by rwa [Vector.length_toList]
  rw [halvesAfter, List.take_succ_eq_append_getElem hlength, List.foldl_concat, Vector.getElem_toList, halvesAfter]

/-- The sixteen rounds use up the schedule. -/
theorem halvesAfter_sixteen (sched : Schedule) (h : Halves) : halvesAfter sched h 16 = desRounds sched h := by
  rw [halvesAfter, List.take_of_length_le (Vector.length_toList).le, desRounds]

/-- `L_(r+1)` and `R_(r+1)` (44_block_transform.md R153). -/
theorem left_halvesAfter_succ (sched : Schedule) (h : Halves) {r : Nat} (hr : r < 16) :
    (halvesAfter sched h (r + 1)).left = (halvesAfter sched h r).right := by
  rw [halvesAfter_succ sched h hr, desRound]

theorem right_halvesAfter_succ (sched : Schedule) (h : Halves) {r : Nat} (hr : r < 16) :
    (halvesAfter sched h (r + 1)).right =
      (halvesAfter sched h r).left ^^^ feistel (halvesAfter sched h r).right sched[r] := by
  rw [halvesAfter_succ sched h hr, desRound]

/-- `DES` joins `R_16` above `L_16` (44_block_transform.md R154 and R155). -/
theorem des_eq_permute_halvesAfter (block : Block) (sched : Schedule) :
    des block sched = permute fp ((halvesAfter sched (splitBlock block) 16).right ++
      (halvesAfter sched (splitBlock block) 16).left) := by
  rw [des, joinSwapped, halvesAfter_sixteen]

/-- A schedule whose entry `i` is entry `15 - i` of another is its reversal (42_key_schedule.md R127). -/
theorem schedule_eq_reverse {sched reversed : Schedule} (h : ∀ i : Fin 16, reversed[i] = sched[15 - i.val]) :
    reversed = sched.reverse := by
  apply Vector.ext
  intro i hi
  rw [Vector.getElem_reverse]
  exact h ⟨i, hi⟩

/-- The two schedules of a key are each the reversal of the other (42_key_schedule.md R128). -/
theorem reverse_ks_decrypt (key : Key) : (ks key .decrypt).reverse = ks key .encrypt := by
  rw [ks_decrypt, Vector.reverse_reverse]

end Sys2Proof.Machine
end

section
/-! The statements about the Block Transform (44_block_transform.md). -/

namespace Sys2Proof.Machine

/-- Settles O49: the rounds in reverse order undo the rounds, one inside another. -/
theorem reversedScheduleInvertsDes : Obligations.ReversedScheduleInvertsDes := by
  intro block sched reversed hreversed
  rw [schedule_eq_reverse hreversed, des_des_reverse]

/-- Settles O50: each of the key's two schedules is the reversal of the other. -/
theorem involutionUnderMatchedSchedules : Obligations.InvolutionUnderMatchedSchedules := by
  intro key block
  constructor
  · rw [ks_decrypt, des_des_reverse]
  · rw [← reverse_ks_decrypt, des_des_reverse]

/-- Settles O48: the halves of each round are those after the first rounds of the fold over the schedule. -/
theorem desRoundByRound : Obligations.DesRoundByRound := by
  intro block sched
  refine ⟨fun n => (halvesAfter sched (splitBlock block) n).left,
    fun n => (halvesAfter sched (splitBlock block) n).right, rfl, rfl, fun r => ?_,
    des_eq_permute_halvesAfter block sched, ?_⟩
  · exact ⟨left_halvesAfter_succ sched _ r.isLt, right_halvesAfter_succ sched _ r.isLt⟩
  · have hlast : 15 < 16 := by decide
    exact congrArg₂ (· ++ ·) (right_halvesAfter_succ sched _ hlast) (left_halvesAfter_succ sched _ hlast)

/-- Settles O13, by the equation of `exec` and the answer of a reader under a valid schedule. -/
theorem xformTransformsBlock : Obligations.XformTransformsBlock := by
  intro block s hvalid
  rw [exec_eq, execResponse, scheduleResponse_of_valid hvalid]
  rfl

end Sys2Proof.Machine
end

section
/-! SUPPORT. The answers to a stream of `XFORM` commands (45_batch_driver.md R170 and R171). -/

namespace Sys2Proof.Machine

/-- `XBATCH` holds no `KEYGEN`, so its commands are answered one by one under the state they start from. -/
theorem specRun_xbatch (blocks : List Block) (a : Arch) :
    specRun (presentAll (xbatch blocks)) a = (a, blocks.map fun b => scheduleResponse a (des b a.rk)) := by
  rw [specRun_presentAll_of_ne_keygen (by simp [xbatch]), xbatch, List.map_map]
  rfl

/-- The answers to the blocks: the words of `Batch`, or `NoSchedule` for each (45_batch_driver.md R170 and R175). -/
theorem map_scheduleResponse_des (blocks : List Block) (a : Arch) :
    (blocks.map fun b => scheduleResponse a (des b a.rk)) =
      if a.schedValid then (batch blocks a.rk).map fun c => 0b00#2 ++ c
      else List.replicate blocks.length (0b10#2 ++ 0#64) := by
  cases hv : a.schedValid with
  | true => simp [scheduleResponse_of_valid hv, batch]
  | false => simp [scheduleResponse_of_invalid hv]

theorem length_presentAll_xbatch (blocks : List Block) : (presentAll (xbatch blocks)).length = blocks.length := by
  simp [presentAll, xbatch]

end Sys2Proof.Machine
end

section
/-! The statement about the Batch Driver (45_batch_driver.md). -/

namespace Sys2Proof.Machine

/-- Settles O32: the run is the spec's fold over the commands of `XBATCH`, none of which writes the state. -/
theorem xbatchRealisesBatch : Obligations.XbatchRealisesBatch := by
  intro s blocks rest hport
  have hrun := run_eq_specRun hport
  rw [length_presentAll_xbatch, specRun_xbatch, map_scheduleResponse_des] at hrun
  exact hrun

end Sys2Proof.Machine
end

section
/-! SUPPORT. The faults (60_exceptions.md): which words are illegal, which answer a step gives to each, and that a step
answered with a fault writes nothing, so that the answer alone tells the whole step. -/

namespace Sys2Proof.Machine

/-! ## The illegal words (60_exceptions.md R182) -/

/-- The listed patterns, in the fields the decoder checks. -/
theorem illegalPattern_iff_fields (w : CommandWord) :
    illegalPattern w ↔
      opField w = 3#2 ∨ rsvField w ≠ 0#1 ∨ (opField w = 0#2 ∧ idxField w ≠ 0#4) ∨
      (opField w = 1#2 ∧ (dirField w ≠ 0#1 ∨ idxField w ≠ 0#4)) ∨
      (opField w = 2#2 ∧ (dirField w ≠ 0#1 ∨ dataField w ≠ 0#64)) := by
  simp [illegalPattern, opField, idxField, dataField, dirField_eq_zero_iff, rsvField_eq_zero_iff]

/-- Each check of the decoder is one of the listed patterns. -/
theorem illegalPattern_of_decode_error {w : CommandWord} {err : DecodeError} (h : decode w = .error err) :
    illegalPattern w := by
  rw [illegalPattern_iff_fields]
  unfold decode at h
  split_ifs at h with hres hrsv hkeygen hidx hxform hdir hidx hdir hdata
  · exact .inl hres
  · exact .inr (.inl hrsv)
  · exact .inr (.inr (.inl ⟨hkeygen, hidx⟩))
  · exact .inr (.inr (.inr (.inl ⟨hxform, .inl hdir⟩)))
  · exact .inr (.inr (.inr (.inl ⟨hxform, .inr hidx⟩)))
  · exact .inr (.inr (.inr (.inr ⟨opField_eq_two hres hkeygen hxform, .inl hdir⟩)))
  · exact .inr (.inr (.inr (.inr ⟨opField_eq_two hres hkeygen hxform, .inr hdata⟩)))

/-- The word of a command has none of the listed patterns. -/
theorem not_illegalPattern_encode (i : Instr) : ¬ illegalPattern (encode i) := by
  rw [illegalPattern_iff_fields]
  cases i <;> simp [encode]

theorem illegalPattern_iff_decode (w : CommandWord) : illegalPattern w ↔ ∃ err, decode w = .error err := by
  constructor
  · intro h
    cases hd : decode w with
    | error err => exact ⟨err, rfl⟩
    | ok i =>
      obtain rfl := decode_eq_ok_iff.mp hd
      exact absurd h (not_illegalPattern_encode i)
  · rintro ⟨err, hd⟩
    exact illegalPattern_of_decode_error hd

/-! ## The words that need a schedule (60_exceptions.md R183) -/

theorem matchesWord_xformRow_or_rdkeyRow_iff (w : CommandWord) :
    (xformRow.matchesWord w = true ∨ rdkeyRow.matchesWord w = true) ↔
      ∃ i, decode w = .ok i ∧ (i.row = xformRow ∨ i.row = rdkeyRow) := by
  constructor
  · rintro (hx | hr)
    · obtain ⟨i, hi, hrow⟩ := exists_decode_of_matchesWord (by simp [opcodeRows]) hx
      exact ⟨i, hi, .inl hrow⟩
    · obtain ⟨i, hi, hrow⟩ := exists_decode_of_matchesWord (by simp [opcodeRows]) hr
      exact ⟨i, hi, .inr hrow⟩
  · rintro ⟨i, hi, hrow⟩
    obtain rfl := decode_eq_ok_iff.mp hi
    rcases hrow with hx | hr
    · exact .inl (hx ▸ row_matchesWord_encode i)
    · exact .inr (hr ▸ row_matchesWord_encode i)

/-! ## The status a command is answered with -/

/-- The two readers without a schedule are the only commands answered with a fault. -/
theorem statusOf_execResponse (i : Instr) (a : Arch) :
    statusOf (execResponse i a) =
      if a.schedValid = false ∧ (i.row = xformRow ∨ i.row = rdkeyRow) then 0b10#2 else 0b00#2 := by
  cases i with
  | keygen dir key =>
    have hrow : ¬ (keygenRow = xformRow ∨ keygenRow = rdkeyRow) := by decide
    simp [execResponse, Instr.row, hrow, Status.code]
  | xform block => cases h : a.schedValid <;> simp [execResponse, scheduleResponse, Instr.row, h, Status.code]
  | rdkey idx => cases h : a.schedValid <;> simp [execResponse, scheduleResponse, Instr.row, h, Status.code]

theorem statusOf_specStep_of_decode_error {w : CommandWord} {err : DecodeError} (h : decode w = .error err)
    (a : Arch) : statusOf (specStep a w).2 = 0b01#2 := by
  rw [specStep_of_decode_error h]
  exact statusOf_append 0b01#2 0#64

/-- `IllegalCommand` is the answer to the words that do not decode, whatever the state (60_exceptions.md R182). -/
theorem statusOf_specStep_eq_illegal_iff (a : Arch) (w : CommandWord) :
    statusOf (specStep a w).2 = 0b01#2 ↔ ∃ err, decode w = .error err := by
  cases hd : decode w with
  | error err => simp [statusOf_specStep_of_decode_error hd]
  | ok i =>
    rw [specStep_of_decode hd, statusOf_execResponse]
    split_ifs <;> simp

/-- `NoSchedule` is the answer to the legal words of the two readers while `SCHED_VALID` = 0 (60_exceptions.md R183). -/
theorem statusOf_specStep_eq_noSchedule_iff (a : Arch) (w : CommandWord) :
    statusOf (specStep a w).2 = 0b10#2 ↔
      a.schedValid = false ∧ ∃ i, decode w = .ok i ∧ (i.row = xformRow ∨ i.row = rdkeyRow) := by
  cases hd : decode w with
  | error err => simp [statusOf_specStep_of_decode_error hd]
  | ok i =>
    rw [specStep_of_decode hd, statusOf_execResponse]
    split_ifs with h
    · exact iff_of_true rfl ⟨h.1, i, rfl, h.2⟩
    · refine iff_of_false (by decide) ?_
      rintro ⟨hvalid, _, hi, hrow⟩
      cases hi
      exact h ⟨hvalid, hrow⟩

/-! ## A step that answers with a fault (60_exceptions.md R185, R186) -/

/-- A fault writes no state: the one command that writes is never answered with one. -/
theorem specStep_fst_of_fault {a : Arch} {w : CommandWord} (h : statusOf (specStep a w).2 ≠ 0b00#2) :
    (specStep a w).1 = a := by
  cases hd : decode w with
  | error err => rw [specStep_of_decode_error hd, specIllegal]
  | ok i =>
    rw [specStep_of_decode hd] at h ⊢
    cases i with
    | keygen dir key => exact absurd (statusOf_responseWord .ok 0#64) h
    | xform block => rfl
    | rdkey idx => rfl

theorem append_statusOf_dataOf (r : ResponseWord) : statusOf r ++ dataOf r = r :=
  (BitVec.extractLsb'_append_extractLsb'_eq_extractLsb' rfl).trans BitVec.extractLsb'_eq_self

/-- Without data a response word is its status. -/
theorem eq_append_zero_iff_statusOf {r : ResponseWord} (hr : ResponseWellFormed r) {st : BitVec 2}
    (hst : st ≠ 0b00#2) : r = st ++ 0#64 ↔ statusOf r = st := by
  constructor
  · rintro rfl
    exact statusOf_append st 0#64
  · rintro rfl
    rw [← hr.2 hst, append_statusOf_dataOf]

/-- A step that answers with a fault's status only adds the response word. -/
theorem step_command_of_fault {w : CommandWord} {s : State} (h : statusOf (specStep s.arch w).2 ≠ 0b00#2) :
    step (present (.command w) s) = .next { s with responses := s.responses ++ [(specStep s.arch w).2] } := by
  rw [step_command, specStep_fst_of_fault h]

/-- A step raises a fault, with no write and zero data, just when the answer has the fault's status. -/
theorem step_command_eq_fault_iff {st : BitVec 2} (hst : st ≠ 0b00#2) (w : CommandWord) (s : State) :
    step (present (.command w) s) = .next { s with responses := s.responses ++ [st ++ 0#64] } ↔
      statusOf (specStep s.arch w).2 = st := by
  rw [← eq_append_zero_iff_statusOf (responseWellFormed_specStep s.arch w) hst]
  constructor
  · intro h
    rw [step_command] at h
    simpa using congrArg State.responses (Host.Outcome.next.inj h)
  · intro h
    have hstatus : statusOf (specStep s.arch w).2 ≠ 0b00#2 := by rwa [h, statusOf_append]
    rw [step_command_of_fault hstatus, h]

end Sys2Proof.Machine
end

section
/-! The statements about the exceptions (60_exceptions.md). -/

namespace Sys2Proof.Machine

/-- Settles O5: a word with a listed pattern, a word that matches no row and a word answered `IllegalCommand` are all a
word that does not decode. -/
theorem illegalCommandWords : Obligations.IllegalCommandWords := fun w =>
  ⟨(illegalPattern_iff_decode w).trans (legalWord_eq_false_iff_decode w).symm, fun s => by
    rw [step_command_eq_fault_iff (by decide), statusOf_specStep_eq_illegal_iff, illegalPattern_iff_decode]⟩

/-- Settles O16: the answer has the status of `NoSchedule` just when a reader's word meets a state without a
schedule. -/
theorem noScheduleRaisedExactly : Obligations.NoScheduleRaisedExactly := by
  intro s w
  rw [step_command_eq_fault_iff (by decide), statusOf_specStep_eq_noSchedule_iff, matchesWord_xformRow_or_rdkeyRow_iff]

/-- Settles O18: the fault leaves the architectural state and the port, and these alone decide what the next event does
and what it is answered. -/
theorem faultLeavesNoTrace : Obligations.FaultLeavesNoTrace := by
  intro s t w r e hstep hresponses hfault
  rw [step_command] at hstep
  cases hstep
  obtain rfl : (specStep s.arch w).2 = r := by simpa using hresponses
  rw [specStep_fst_of_fault hfault]
  exact ⟨_, _, eventResponses s.arch e, step_present e _, step_present e s, rfl, rfl, rfl, rfl⟩

/-- Settles O17: a word that matches no row does not decode, and a word that does not decode raises `IllegalCommand`
before the state is looked at. -/
theorem illegalCommandWinsOverNoSchedule : Obligations.IllegalCommandWinsOverNoSchedule := by
  intro s w hillegal _
  obtain ⟨err, herr⟩ := (legalWord_eq_false_iff_decode w).mp hillegal
  exact ⟨_, 0b01#2 ++ 0#64, step_command_of_decode_error herr s, rfl, statusOf_append _ _, dataOf_append _ _, rfl⟩

end Sys2Proof.Machine
end

section
/-! SUPPORT. Reset as an event (70_reset_and_hazards.md R202), and a `KEYGEN` with the `XFORM` that follows it
(R203). -/

namespace Sys2Proof.Machine

/-- A reset is not a command: nothing answers it. -/
@[simp] theorem eventResponses_reset (a : Arch) (abandoned : List CommandWord) :
    eventResponses a (.reset abandoned) = [] := rfl

/-- A step on a presented reset writes the architectural state and nothing else. -/
theorem step_reset (abandoned : List CommandWord) (s : State) :
    step (present (.reset abandoned) s) = .next { s with arch := Arch.reset } := by
  rw [step_present, writes_reset, Option.getD_some, eventResponses_reset, List.append_nil]

/-- A `KEYGEN` and then an `XFORM`: the block is answered under the new key's schedule, whatever the state was. -/
theorem specRun_keygen_xform (dir : Direction) (key : Key) (block : Block) (is : List Instr) (a : Arch) :
    specRun (presentAll (.keygen dir key :: .xform block :: is)) a =
      ((specRun (presentAll is) { rk := ks key dir, schedValid := true }).1,
        (0b00#2 ++ 0#64) :: (0b00#2 ++ des block (ks key dir)) ::
          (specRun (presentAll is) { rk := ks key dir, schedValid := true }).2) := by
  rw [presentAll_cons, presentAll_cons, specRun_encode_cons, specRun_encode_cons]
  rfl

end Sys2Proof.Machine
end

section
/-! The statements about reset and hazards (70_reset_and_hazards.md). -/

namespace Sys2Proof.Machine

/-- Settles O22: the run over any events at the port is the spec's fold, of which a reset is one kind of event. -/
theorem eventStreamIsFoldWithResets : Obligations.EventStreamIsFoldWithResets :=
  fun _ _ _ hport => run_eq_specRun hport

/-- Settles O34: the run is the spec's fold, each block is answered under the key loaded before it, and the decryption
schedule undoes the pass over the encryption schedule. -/
theorem coreDecryptsWhatItEncrypted : Obligations.CoreDecryptsWhatItEncrypted := by
  intro s key block rest hport
  refine ⟨_, run_eq_specRun hport, rfl, ?_⟩
  rw [specRun_keygen_xform, specRun_keygen_xform, (involutionUnderMatchedSchedules key block).1, presentAll_nil,
    specRun_nil]

/-- Settles O19: a reset writes the reset state of the core, in which `SCHED_VALID` is 0, and nothing else. -/
theorem resetFromEveryState : Obligations.ResetFromEveryState :=
  fun s abandoned => ⟨step_reset abandoned s, reset_schedValid⟩

/-- Settles O20, by the fields of the reset state. -/
theorem stateAfterReset : Obligations.StateAfterReset :=
  ⟨reset_schedValid, rfl, reset_port, reset_responses⟩

end Sys2Proof.Machine
end
